-- ==== Sys2Proof/Word.lean ====
section
/-! DEFINITION. The word types of the block (30_encoding.md R70, R71; 00_scope.md R8). -/

namespace Sys2Proof

/-- A byte, an integer in 0 to 255 (R8). -/
abbrev Byte := BitVec 8

/-- A sample word, format `S16`: sixteen bits read as two's complement (R71). Its value is `BitVec.toInt`. -/
abbrev Sample := BitVec 16

/-- A frame, format `FR`: eight bytes, `FRAME[0]` received first (R73, 10_state.md R35). -/
abbrev Frame := Vector Byte 8

end Sys2Proof
end

