-- ==== Sys2Proof/Config.lean ====
section
/-! DEFINITION. The configuration record `CFG` of 00_scope.md R7: nine constants fixed at build time. -/

namespace Sys2Proof

/-- `CFG.CENTER_EQ_MODE`: how a sample equal to `CENTER` is classified (41_pulse_demodulator.md R120, conflict C1). -/
inductive EqMode where
  /-- Low means `<= CENTER` (the default). -/
  | low
  /-- Low means `< CENTER`; an equal sample is neither high nor low. -/
  | strict
  deriving DecidableEq, Repr

/-- The configuration record `CFG` (R7). No operation writes it (10_state.md R36). -/
structure Cfg where
  /-- `CENTER_SAMPLES`: the length of a warm-up. -/
  centerSamples : Nat
  /-- `PREAMBLE_COUNT`: the width count above which a run is a preamble. -/
  preambleCount : Nat
  /-- `MINLOWBIT`: the width count above which a pulse is a bit. -/
  minLowBit : Nat
  /-- `MINHIGHBIT`: the width count above which a bit is a 1. -/
  minHighBit : Nat
  /-- `FRAMEBYTECOUNT`: 8 is the only admitted value (R7, conflict C11). -/
  frameByteCount : Nat
  /-- `FRAMEBITCOUNT`: the bit budget of the stale-frame guard (decision D6). -/
  frameBitCount : Nat
  /-- `VREF`: the reference voltage in volts (decision D10: no value in the source). -/
  vref : Nat
  /-- `CENTER_EQ_MODE` (decision D3). -/
  centerEqMode : EqMode
  /-- `ANALYZEBYTECOUNT`: only the bound on `PW2B`'s `N` in the uses the source names (43_pulse_to_bytes.md R180). -/
  analyzeByteCount : Nat
  deriving DecidableEq, Repr

/-- The value of `CFG.VREF` in the reset state. The source gives none (R7, decision D10), so it has no
body here and no proof can learn it; statements quantify over `cfg.vref` instead. DESIGN CHOICE, safe (log entry 2). -/
opaque Config.vref : Nat

/-- The defaults of R7's table, the "E2 Classic" preset. -/
def Cfg.e2Classic : Cfg where
  centerSamples := 100
  preambleCount := 40
  minLowBit := 3
  minHighBit := 8
  frameByteCount := 8
  frameBitCount := 64
  vref := Config.vref
  centerEqMode := .low
  analyzeByteCount := 9

end Sys2Proof
end

