-- ==== Sys2Proof/Syntax.lean ====
section
/-! DEFINITION. The operations of the block: one constructor of `Instr` per row of spec/opcode_table.json,
and the codes that select them (30_encoding.md R70, R75 to R78). -/

namespace Sys2Proof

/-- The rows of the opcode table, in the table's order. `HOLD` and `NOBIT` have two rows each, so two constructors each. -/
inductive Instr where
  /-- `WARM` (R100): sum one warm-up sample. -/
  | warm
  /-- `CAL` (R101): sum the last warm-up sample, set `CENTER`, go to `RUN`. -/
  | cal
  /-- `RISE` (R123): rising edge. -/
  | rise
  /-- `HIGH` (R124): sustained high. -/
  | high
  /-- `FALL` (R125): falling edge, the bit-decision point. -/
  | fall
  /-- `LOW` (R126): sustained low. -/
  | low
  /-- `HOLD` (R135), first row: `PREV = CENTER` in mode strict. -/
  | holdPrev
  /-- `HOLD` (R135), second row: `s = CENTER` in mode strict. -/
  | holdCur
  /-- `NOBIT` (R127), first row: not in a frame. -/
  | nobitInactive
  /-- `NOBIT` (R127), second row: the pulse is too short. -/
  | nobitShort
  /-- `BIT0` (R128): shift in a 0. -/
  | bit0
  /-- `BIT1` (R129): shift in a 1. -/
  | bit1
  /-- `BYTECLOSE` (R130): close the byte, append it to the frame. -/
  | byteClose
  /-- `VALIDATE` (R160): check the completed frame and report it. -/
  | validate
  /-- `DECODE` (R162 to R165): decode the valid frame, emit `READING`. -/
  | decode
  /-- `RECAL` (R196): return to warm-up. -/
  | recal
  /-- `STALE` (R133): the stale-frame guard. -/
  | stale
  /-- `PRE2ACT` (R134): transition from preamble to frame-active. -/
  | pre2act
  /-- `PW2B(widths, N)` (R180): decode a width list into at most `N` bytes. -/
  | pw2b (widths : List Nat) (count : Nat)
  /-- `ASM16` (R52): the sample made of two bytes, the low one first. -/
  | asm16 (l h : Byte)
  deriving DecidableEq, Repr

/-- The micro-operations the pulse code selects inside `FALL` (R77), one per row. -/
inductive PulseOp where
  | nobitInactive
  | nobitShort
  | bit0
  | bit1
  deriving DecidableEq, Repr

/-- The conditions that select the micro-operations without an encoding (R78), one per row of the table
whose format is "state-selected". -/
inductive Condition where
  /-- `BITPOS` reaches 8. -/
  | byteFull
  /-- `BYTECNT` reaches `CFG.FRAMEBYTECOUNT`. -/
  | frameFull
  /-- The checksum matches. -/
  | checksumMatch
  /-- The checksum does not match. -/
  | checksumMismatch
  /-- No frame completed in this step and `TOTBITS > CFG.FRAMEBITCOUNT`. -/
  | overBudget
  /-- The end of a RUN-phase step with `did_reset = 1` and `PREAMBLE = 1`. -/
  | preambleEnds
  deriving DecidableEq, Repr

/-- What selects an operation: a code of one of the formats of R70, or a condition of R78. -/
inductive Code where
  /-- Format `CW`, the class word (R75). -/
  | cw (w : BitVec 6)
  /-- Format `PW`, the pulse code (R77). -/
  | pw (w : BitVec 3)
  /-- Two bytes of the byte stream in the order they arrive, format `S16` (R52, R71). -/
  | s16 (first second : Byte)
  /-- Format `WL`, a width list with the number of bytes wanted (R180). -/
  | wl (widths : List Nat) (count : Nat)
  /-- Selected by state (R78). -/
  | selected (c : Condition)
  deriving DecidableEq, Repr

end Sys2Proof
end

