-- ==== Sys2Proof/WellFormed.lean ====
section
/-! DEFINITION. Which configurations are admitted, which codes can be formed, which operations a
configuration can select. -/

namespace Sys2Proof

/-- The configurations the rules are stated for (00_scope.md R7, decision D22, conflict C11). A model
refuses any other. -/
def Cfg.admitted (c : Cfg) : Bool :=
  decide (1 ≤ c.centerSamples ∧ c.minLowBit ≤ c.minHighBit ∧ c.minHighBit ≤ c.preambleCount ∧ c.frameByteCount = 8)

/-- `Cfg.admitted` as a proposition, for statements. -/
abbrev Cfg.Admitted (c : Cfg) : Prop := c.admitted = true

/-- The class words some state and sample form (30_encoding.md R75, R80 (b)): never `LAST` and `RUN`
together, bits 3:0 clear outside `RUN`, never `PGT` with `PLT`, never `CGT` with `CLT`. -/
def ClassWord.reachable (w : BitVec 6) : Bool :=
  !(w[5] && w[4]) && (w[4] || (w &&& 0x0F#6) == 0#6) && !(w[3] && w[2]) && !(w[1] && w[0])

/-- The pulse codes some state forms (R80 (f)): never `GH` without `GL`. -/
def PulseCode.reachable (w : BitVec 3) : Bool :=
  w[1] || !w[0]

/-- The codes some state forms. -/
def Code.reachable : Code → Bool
  | .cw w => ClassWord.reachable w
  | .pw w => PulseCode.reachable w
  | .s16 _ _ => true
  | .wl _ _ => true
  | .selected _ => true

/-- The operations a configuration can select. `HOLD` needs mode strict (R135); `BIT0` needs a width count
between the two thresholds (R128); the uses of `PW2B` that the source names keep
`N <= CFG.ANALYZEBYTECOUNT` (R180). The machine gives every operation its meaning whether or not this holds. -/
def Instr.wf (c : Cfg) : Instr → Bool
  | .warm => true
  | .cal => true
  | .rise => true
  | .high => true
  | .fall => true
  | .low => true
  | .holdPrev => c.centerEqMode == .strict
  | .holdCur => c.centerEqMode == .strict
  | .nobitInactive => true
  | .nobitShort => true
  | .bit0 => decide (c.minLowBit < c.minHighBit)
  | .bit1 => true
  | .byteClose => true
  | .validate => true
  | .decode => true
  | .recal => true
  | .stale => true
  | .pre2act => true
  | .pw2b _ count => decide (count ≤ c.analyzeByteCount)
  | .asm16 _ _ => true

end Sys2Proof
end

