-- ==== Sys2Proof/Decode.lean ====
section
/-! DEFINITION. From codes to operations and back (30_encoding.md R75 to R78, spec/opcode_table.json). -/

namespace Sys2Proof

/-- Why a code selects no operation. -/
inductive DecodeError where
  /-- A class word that no state and sample form (R80 (b)). -/
  | unreachableClassWord
  /-- A class word that matches no row: none exists (R76, "the decode is total"). -/
  | unmatchedClassWord
  /-- Bits above the code's own width are set. -/
  | bitsAboveCode
  /-- No format of R70 has this many bits. -/
  | noSuchFormat
  deriving DecidableEq, Repr

/-- The answer of a decoder: what it read, or why it refuses. -/
inductive Decoded (α : Type) where
  | ok (a : α)
  | reject (e : DecodeError)
  deriving DecidableEq, Repr

/-- One row of the opcode table: it matches `w` iff `(w and mask) = bits`. -/
structure Row (width : Nat) (α : Type) where
  op : α
  bits : BitVec width
  mask : BitVec width
  deriving DecidableEq, Repr

/-- Whether a row matches (R76). -/
def Row.hits {width : Nat} {α : Type} (r : Row width α) (w : BitVec width) : Bool :=
  w &&& r.mask == r.bits

/-- The first row that matches, tested top to bottom (R76). -/
def firstHit {width : Nat} {α : Type} : List (Row width α) → BitVec width → Option α
  | [], _ => none
  | r :: rs, w => if r.hits w then some r.op else firstHit rs w

/-- The eight class-word rows of R76, in the table's order. -/
def classRows : List (Row 6 Instr) :=
  [ ⟨.warm, 0x00#6, 0x30#6⟩,
    ⟨.cal, 0x20#6, 0x30#6⟩,
    ⟨.rise, 0x16#6, 0x16#6⟩,
    ⟨.high, 0x1A#6, 0x1A#6⟩,
    ⟨.fall, 0x19#6, 0x19#6⟩,
    ⟨.low, 0x15#6, 0x15#6⟩,
    ⟨.holdPrev, 0x10#6, 0x1C#6⟩,
    ⟨.holdCur, 0x10#6, 0x13#6⟩ ]

/-- The four pulse-code rows of R77, in the table's order. -/
def pulseRows : List (Row 3 PulseOp) :=
  [ ⟨.nobitInactive, 0x0#3, 0x4#3⟩,
    ⟨.nobitShort, 0x0#3, 0x2#3⟩,
    ⟨.bit0, 0x6#3, 0x7#3⟩,
    ⟨.bit1, 0x7#3, 0x7#3⟩ ]

/-- The operation a class word selects (R76). A word that cannot be formed is rejected by name, which R80 (b)
leaves to the decoder (log entry 19). -/
def decodeClassWord (w : BitVec 6) : Decoded Instr :=
  if ClassWord.reachable w then
    match firstHit classRows w with
    | some i => .ok i
    | none => .reject .unmatchedClassWord
  else .reject .unreachableClassWord

/-- The micro-operation a pulse code selects (R77): the first row of `pulseRows` that matches. The rows cover
all eight codes; the two that cannot be formed (R80 (f)) match a `NOBIT` row. -/
def decodePulseCode (w : BitVec 3) : PulseOp :=
  if w &&& 0x4#3 = 0x0#3 then .nobitInactive
  else if w &&& 0x2#3 = 0x0#3 then .nobitShort
  else if w &&& 0x7#3 = 0x6#3 then .bit0
  else .bit1

/-- The mnemonic of a row of spec/opcode_table.json. -/
def Instr.mnemonic : Instr → String
  | .warm => "WARM"
  | .cal => "CAL"
  | .rise => "RISE"
  | .high => "HIGH"
  | .fall => "FALL"
  | .low => "LOW"
  | .holdPrev => "HOLD"
  | .holdCur => "HOLD"
  | .nobitInactive => "NOBIT"
  | .nobitShort => "NOBIT"
  | .bit0 => "BIT0"
  | .bit1 => "BIT1"
  | .byteClose => "BYTECLOSE"
  | .validate => "VALIDATE"
  | .decode => "DECODE"
  | .recal => "RECAL"
  | .stale => "STALE"
  | .pre2act => "PRE2ACT"
  | .pw2b _ _ => "PW2B"
  | .asm16 _ _ => "ASM16"

/-- A micro-operation of `FALL` as an operation of the table. -/
def PulseOp.instr : PulseOp → Instr
  | .nobitInactive => .nobitInactive
  | .nobitShort => .nobitShort
  | .bit0 => .bit0
  | .bit1 => .bit1

/-- The micro-operation a condition selects (R78). -/
def Condition.instr : Condition → Instr
  | .byteFull => .byteClose
  | .frameFull => .validate
  | .checksumMatch => .decode
  | .checksumMismatch => .recal
  | .overBudget => .stale
  | .preambleEnds => .pre2act

/-- The operation a code selects, or why it selects none. -/
def decode : Code → Decoded Instr
  | .cw w => decodeClassWord w
  | .pw w => .ok (decodePulseCode w).instr
  | .s16 first second => .ok (.asm16 first second)
  | .wl widths count => .ok (.pw2b widths count)
  | .selected c => .ok c.instr

/-- The code of a table word of `nbits` bits: eight bits are a class word or, where no state forms that class
word, a pulse code (log entry 19); sixteen bits are the two bytes of `ASM16`, the first in bits 7:0;
thirty-two bits are `DECODE`'s operand, the low half of a frame; sixty-four are `VALIDATE`'s, a whole frame. -/
def parseTableWord (nbits w : Nat) : Decoded Code :=
  if w ≥ 2 ^ nbits then .reject .bitsAboveCode
  else if nbits = 8 then
    if w ≥ 64 then .reject .bitsAboveCode
    else if ClassWord.reachable (BitVec.ofNat 6 w) then .ok (.cw (BitVec.ofNat 6 w))
    else if w < 8 then .ok (.pw (BitVec.ofNat 3 w))
    else .reject .unreachableClassWord
  else if nbits = 16 then .ok (.s16 (BitVec.ofNat 8 w) (BitVec.ofNat 8 (w / 256)))
  else if nbits = 32 then .ok (.selected .checksumMatch)
  else if nbits = 64 then .ok (.selected .frameFull)
  else .reject .noSuchFormat

/-- The instruction the decoder reads from a table word, none where it refuses. -/
def decodeTableWord (nbits w : Nat) : Option Instr :=
  match parseTableWord nbits w with
  | .reject _ => none
  | .ok c =>
    match decode c with
    | .ok i => some i
    | .reject _ => none

/-- The encoder, written from the rows' `match` columns and the formats of `PW2B` and `ASM16`. The two rows of
`HOLD` share the word 0x10, which reads as the first, so the second is given a word of its pattern that the first
row does not match (`PREV` high, `s` equal to `CENTER`); likewise the second row of `NOBIT`. -/
def encode : Instr → Code
  | .warm => .cw 0x00#6
  | .cal => .cw 0x20#6
  | .rise => .cw 0x16#6
  | .high => .cw 0x1A#6
  | .fall => .cw 0x19#6
  | .low => .cw 0x15#6
  | .holdPrev => .cw 0x10#6
  | .holdCur => .cw 0x18#6
  | .nobitInactive => .pw 0x0#3
  | .nobitShort => .pw 0x4#3
  | .bit0 => .pw 0x6#3
  | .bit1 => .pw 0x7#3
  | .byteClose => .selected .byteFull
  | .validate => .selected .frameFull
  | .decode => .selected .checksumMatch
  | .recal => .selected .checksumMismatch
  | .stale => .selected .overBudget
  | .pre2act => .selected .preambleEnds
  | .pw2b widths count => .wl widths count
  | .asm16 l h => .s16 l h

end Sys2Proof
end

