-- ==== Sys2Proof/Machine/State.lean ====
section
/-! DEFINITION. The state of the block (10_state.md R22 to R35), the events it emits (60_exceptions.md R190),
the stimulus it is given (R38), and its reset state (70_reset_and_hazards.md R220). -/

namespace Sys2Proof.Machine

/-- `PHASE` (R32). -/
inductive Phase where
  /-- `WARMUP`, encoded 0: the tracker sums, the demodulator is idle. -/
  | warmup
  /-- `RUN`, encoded 1: ready. -/
  | run
  deriving DecidableEq, Repr

/-- The events of R190, each with its payload. -/
inductive Event where
  /-- `READY(c)`: the new `CENTER` (R191). -/
  | ready (c : Sample)
  /-- `READING(f, adc, e, w_mant, w_exp)` (R194, R162 to R165). -/
  | reading (f : Frame) (adc : Nat) (e : Int) (wMant : Nat) (wExp : Int)
  /-- `MISMATCH(f, cs)`: the frame and the computed checksum (R192). -/
  | mismatch (f : Frame) (cs : Byte)
  /-- `STALE()` (R193). -/
  | stale
  deriving DecidableEq, Repr

/-- The input ports in one clock cycle (R38). -/
structure Pins where
  /-- `rst`: forces the reset state. -/
  rst : Bool
  /-- `s_valid`: a sample is presented this cycle. -/
  valid : Bool
  /-- `s_data`: the sample. -/
  data : Sample
  deriving DecidableEq, Repr

/-- One item of what the outside world does to the model (log entry 3). -/
inductive Stim where
  /-- One clock cycle on the input ports. -/
  | cycle (p : Pins)
  /-- Two bytes of the raw stream reach the front end `ASM16`, the first one first (20_memory.md R52). -/
  | bytes (first second : Byte)
  /-- A host or a test bench calls the function unit `PW2B` (43_pulse_to_bytes.md R180). -/
  | call (widths : List Nat) (count : Nat)
  deriving DecidableEq, Repr

/-- The state. The fields `cfg`, `sample`, `events`, `result` and `stim` are the model's own (log entries 1, 3, 5, 6);
every other field is a register of 10_state.md. -/
structure State where
  /-- `CFG` (00_scope.md R7): the constant argument of the step, written by no operation. -/
  cfg : Cfg
  /-- `PHASE` (R32). -/
  phase : Phase
  /-- `WCNT` (R24): samples summed in the current warm-up. -/
  wcnt : Nat
  /-- `SUM` (R23): the warm-up's accumulator. -/
  sum : Int
  /-- `CENTER` (R22). -/
  center : Sample
  /-- `PREV` (R25): the sample of the previous step. -/
  prev : Sample
  /-- `HCTR` (R26): the high-run counter, unbounded. -/
  hctr : Nat
  /-- `PREAMBLE` (R33). -/
  preamble : Bool
  /-- `ACTIVE` (R33). -/
  active : Bool
  /-- `CURBYTE` (R27). -/
  curByte : Byte
  /-- `BITPOS` (R28): 0 to 7 at step boundaries. -/
  bitPos : Fin 8
  /-- `BYTECNT` (R29): 0 to 7 at step boundaries. -/
  byteCnt : Fin 8
  /-- `TOTBITS` (R30). -/
  totBits : Nat
  /-- `FRAME[0..7]` (R35). -/
  frame : Frame
  /-- `STALE_COUNT` (R31), unbounded. -/
  staleCount : Nat
  /-- `N` (R32), the ghost count of samples consumed since reset. -/
  n : Nat
  /-- The sample `s` this step consumes: the value on `s_data` (R9, R38). -/
  sample : Sample
  /-- The events of the last step, in the order emitted (R20, R56). -/
  events : List Event
  /-- What `PW2B` returned in the last step, none if it was not called (R180). -/
  result : Option (List Byte)
  /-- The stimulus still to come, the next item first. -/
  stim : List Stim
  deriving DecidableEq, Repr

/-- The block never faults: "A model needs no fault and no stuck outcome for this block" (60_exceptions.md R195).
No constructor, so no step can answer a fault. Safe. -/
inductive Fault where
  deriving DecidableEq, Repr

/-- Why the model gives no next state. -/
inductive Refusal where
  /-- Raised by no arm of this model: an operation without a meaning yet. Safe. -/
  | notModelled (mnemonic : String)
  /-- Raised by every meaning and by the fetch when `CFG` is outside 00_scope.md R7's constraints, which a model
  refuses (decision D22). Safe. -/
  | configNotAdmitted
  /-- Raised by the fetch if the class word of a sample decoded to nothing. None does (30_encoding.md R76). Safe. -/
  | undecodable (e : DecodeError)
  deriving DecidableEq, Repr

/-- The state right after reset (R220), with the defaults of `CFG` and nothing presented on the ports yet. -/
def State.reset : State where
  cfg := Cfg.e2Classic
  phase := .warmup
  wcnt := 0
  sum := 0
  center := 0
  prev := 0
  hctr := 0
  preamble := false
  active := false
  curByte := 0
  bitPos := 0
  byteCnt := 0
  totBits := 0
  frame := Vector.replicate 8 0
  staleCount := 0
  n := 0
  sample := 0
  events := []
  result := none
  stim := []

end Sys2Proof.Machine
end

