-- ==== Sys2Proof/Machine/Operands.lean ====
section
/-! DEFINITION. Values assembled from bits and from the state: classification of samples (41_pulse_demodulator.md
R120), the class word (30_encoding.md R75), the pulse code (R77), and the assembled values of R79. -/

namespace Sys2Proof.Machine

/-- `floor(a / b)` for `b > 0` (00_scope.md R8). -/
def floorDiv (a : Int) (b : Nat) : Int := Int.fdiv a b

/-- A sample from two bytes of the stream, the low one first: `sext_16(256*h + l)` (20_memory.md R52, R79 (a)). -/
def sampleOfBytes (l h : Byte) : Sample := h ++ l

/-- The samples of a byte stream (R52). A last unpaired byte gives none (R54, decision D16). -/
def samplesOfBytes : List Byte → List Sample
  | l :: h :: rest => sampleOfBytes l h :: samplesOfBytes rest
  | [_] => []
  | [] => []

/-- `CURBYTE <- (2*CURBYTE + b) mod 256` (R79 (b)). -/
def shiftIn (c : Byte) (b : Bool) : Byte := 2#8 * c + (BitVec.ofBool b).zeroExtend 8

/-- `adc = 256*FRAME[4] + FRAME[5]` (R79 (c), 42_frame_validator.md R162). -/
def adcOf (f : Frame) : Nat := 256 * f[4].toNat + f[5].toNat

/-- `e = sext_8(FRAME[6])` (R79 (d), R163). -/
def exponentOf (f : Frame) : Int := f[6].toInt

/-- `cs = (FRAME[0] + ... + FRAME[6]) mod 256` (R79 (e), R161). -/
def checksumOf (f : Frame) : Byte := f[0] + f[1] + f[2] + f[3] + f[4] + f[5] + f[6]

/-- The frame as the 64-bit value of R73 and of port `frame` (R38): `FRAME[0]` in bits 63:56. -/
def frameWord (f : Frame) : BitVec 64 :=
  f[0] ++ f[1] ++ f[2] ++ f[3] ++ f[4] ++ f[5] ++ f[6] ++ f[7]

/-- The frame whose 64-bit value is `w` (R73). -/
def frameOfWord (w : BitVec 64) : Frame :=
  #v[w.extractLsb' 56 8, w.extractLsb' 48 8, w.extractLsb' 40 8, w.extractLsb' 32 8,
     w.extractLsb' 24 8, w.extractLsb' 16 8, w.extractLsb' 8 8, w.extractLsb' 0 8]

/-- `v` is high: `v > CENTER` (R120). -/
def isHigh (s : State) (v : Sample) : Bool := decide (s.center.toInt < v.toInt)

/-- `v` is low: `v <= CENTER` in mode low, `v < CENTER` in mode strict (R120). -/
def isLow (s : State) (v : Sample) : Bool :=
  match s.cfg.centerEqMode with
  | .low => decide (v.toInt ≤ s.center.toInt)
  | .strict => decide (v.toInt < s.center.toInt)

/-- `PHASE = RUN`, the value of port `ready` (R38). -/
def inRun (s : State) : Bool := s.phase == .run

/-- This sample is the last of the warm-up (R75, bit `LAST`). -/
def lastOfWarmup (s : State) : Bool := !inRun s && decide (s.wcnt + 1 = s.cfg.centerSamples)

/-- The class word `LAST RUN PGT PLT CGT CLT` of the state before the step and its sample (R75). -/
def classWord (s : State) : BitVec 6 :=
  BitVec.ofBool (lastOfWarmup s) ++ BitVec.ofBool (inRun s) ++
    BitVec.ofBool (inRun s && isHigh s s.prev) ++ BitVec.ofBool (inRun s && isLow s s.prev) ++
    BitVec.ofBool (inRun s && isHigh s s.sample) ++ BitVec.ofBool (inRun s && isLow s s.sample)

/-- The pulse code `ACT GL GH` of the state at the falling edge (R77). -/
def pulseCode (s : State) : BitVec 3 :=
  BitVec.ofBool s.active ++ BitVec.ofBool (decide (s.cfg.minLowBit < s.hctr)) ++
    BitVec.ofBool (decide (s.cfg.minHighBit < s.hctr))

end Sys2Proof.Machine
end

