-- ==== Sys2Proof/Machine/Flags.lean ====
section
/-! DEFINITION. The conditions that set flags and select the micro-operations without an encoding
(10_state.md R33, 30_encoding.md R78). -/

namespace Sys2Proof.Machine

/-- The test of `HIGH`, made after the increment: `HCTR > CFG.PREAMBLE_COUNT`, strict (41_pulse_demodulator.md R124). -/
def overPreamble (s : State) (hctr : Nat) : Bool := decide (s.cfg.preambleCount < hctr)

/-- One more bit brings `BITPOS` to 8 (R130). -/
def lastBitOfByte (s : State) : Bool := decide (s.bitPos.val + 1 = 8)

/-- One more byte brings `BYTECNT` to `CFG.FRAMEBYTECOUNT` (R130, R132). -/
def lastByteOfFrame (s : State) : Bool := decide (s.byteCnt.val + 1 = s.cfg.frameByteCount)

/-- `TOTBITS > CFG.FRAMEBITCOUNT` (R133). -/
def overBudget (s : State) : Bool := decide (s.cfg.frameBitCount < s.totBits)

/-- The frame is valid: its checksum equals byte 7 (42_frame_validator.md R160, 30_encoding.md R73). -/
def checksumOk (f : Frame) : Bool := checksumOf f == f[7]

end Sys2Proof.Machine
end

