-- ==== Sys2Proof/Machine/Ops.lean ====
section
/-! DEFINITION. The named operations over the state that the operations of the table are made of. -/

namespace Sys2Proof.Machine

/-- `emit E`: append to the step's event list (00_scope.md R9). -/
def emit (e : Event) (s : State) : State := { s with events := s.events ++ [e] }

/-- `ClearFrameState()`: the six registers of the frame state and nothing else (10_state.md R34). -/
def clearFrameState (s : State) : State :=
  { s with preamble := false, active := false, curByte := 0, bitPos := 0, byteCnt := 0, totBits := 0 }

/-- The entry into recalibration, `RECAL` (60_exceptions.md R196): the block's one taking of an error. Nothing is
saved, and `CENTER` keeps its old value. -/
def recalibrate (s : State) : State := { s with phase := .warmup, wcnt := 0, sum := 0 }

/-- The return from it, `CAL` before its step ending (40_center_tracker.md R101, R197). `CENTER` takes the low
sixteen bits of the floor, which are all of it whenever `SUM` is a sum of samples (log entry 8). -/
def calibrate (s : State) : State :=
  let c : Sample := BitVec.ofInt 16 (floorDiv (s.sum + s.sample.toInt) s.cfg.centerSamples)
  emit (.ready c) { clearFrameState { s with center := c, phase := .run } with hctr := 0, wcnt := 0, sum := 0 }

/-- The event of a valid frame (42_frame_validator.md R162 to R165). -/
def readingOf (c : Cfg) (f : Frame) : Event :=
  .reading f (adcOf f) (exponentOf f) (c.vref * adcOf f) (exponentOf f - 15)

/-- The pure function `validate` (R160): the one event a completed frame causes. -/
def verdict (c : Cfg) (f : Frame) : Event :=
  if checksumOk f then readingOf c f else .mismatch f (checksumOf f)

/-- `DECODE` of the frame buffer, which ends by emitting `READING` (R162 to R165). -/
def decodeReading (s : State) : State := emit (readingOf s.cfg s.frame) s

/-- `VALIDATE` (R160): report the frame buffer, recalibrate on a mismatch, and clear the frame state on either
outcome (41_pulse_demodulator.md R132). -/
def validateFrame (s : State) : State :=
  if checksumOk s.frame then clearFrameState (decodeReading s)
  else clearFrameState (recalibrate (emit (.mismatch s.frame (checksumOf s.frame)) s))

/-- `BYTECLOSE` (R130): store the byte, step `BYTECNT`, and hand a completed frame over. -/
def closeByte (s : State) : State :=
  let stored : State :=
    { s with frame := s.frame.set s.byteCnt.val s.curByte s.byteCnt.isLt
             byteCnt := s.byteCnt + 1
             bitPos := 0
             curByte := 0 }
  if lastByteOfFrame s then validateFrame stored else stored

/-- `STALE` (R133): discard the frame, count it, say so. -/
def dropStale (s : State) : State :=
  emit .stale { clearFrameState s with staleCount := s.staleCount + 1 }

/-- The stale-frame guard of a bit that completed no frame (R122, R133). -/
def staleGuard (s : State) : State := if overBudget s then dropStale s else s

/-- `BITIN(b)` of R122: shift the bit in, count it, close a full byte; the guard is skipped if a frame completed. -/
def bitIn (b : Bool) (s : State) : State :=
  let shifted : State := { s with curByte := shiftIn s.curByte b, totBits := s.totBits + 1 }
  if lastBitOfByte s then
    if lastByteOfFrame s then closeByte shifted else staleGuard (closeByte shifted)
  else staleGuard { shifted with bitPos := s.bitPos + 1 }

/-- The micro-operation of a falling edge (R77, R127 to R129). -/
def pulseStep (op : PulseOp) (s : State) : State :=
  match op with
  | .nobitInactive => s
  | .nobitShort => s
  | .bit0 => bitIn false s
  | .bit1 => bitIn true s

/-- `PRE2ACT` (R134): the frame is created empty when the preamble ends. -/
def startFrame (s : State) : State :=
  { s with preamble := false, active := true, curByte := 0, bitPos := 0, byteCnt := 0, totBits := 0 }

/-- The common step ending (R136). -/
def endStep (s : State) : State := { s with prev := s.sample, n := s.n + 1 }

/-- The end of a RUN-phase step: the PRE2ACT test, then the common ending (R122). `didReset` is the transient
`did_reset` of 10_state.md R39. -/
def endRunStep (didReset : Bool) (s : State) : State :=
  if didReset && s.preamble then endStep (startFrame s) else endStep s

/-- The edge action `HCTR <- 0 ; did_reset <- 1` and the rest of the step (R122). -/
def resetRun (s : State) : State := endRunStep true { s with hctr := 0 }

/-- The reset state (70_reset_and_hazards.md R220) of a block built with the configuration `c`, with a stimulus to come. -/
def resetWith (c : Cfg) (stim : List Stim) : State := { State.reset with cfg := c, stim := stim }

/-- The reset of the block (R220, R221). `CFG` is not state and stays; so does the stimulus, which is not the block's. -/
def resetBlock (s : State) : State := resetWith s.cfg s.stim

/-- The answer of a meaning: the next state, or the refusal of a configuration that is not admitted (decision D22). -/
def answer (s t : State) : Host.Outcome State Fault Refusal :=
  if s.cfg.admitted then .next t else .refused .configNotAdmitted

end Sys2Proof.Machine
end

