-- ==== Sys2Proof/Machine/Demodulator.lean ====
section
/-! DEFINITION. The Pulse-Width Demodulator (41_pulse_demodulator.md). The edge operations are whole RUN-phase steps
(R122); the micro-operations are their own listings only (log entry 7). -/

namespace Sys2Proof.Machine

/-- `RISE` (R123). -/
def execRise (s : State) : Host.Outcome State Fault Refusal := answer s (resetRun s)

/-- `HIGH` (R124): count, then set `PREAMBLE` above the threshold; never cleared here. -/
def execHigh (s : State) : Host.Outcome State Fault Refusal :=
  answer s (endRunStep false
    { s with hctr := s.hctr + 1, preamble := s.preamble || overPreamble s (s.hctr + 1) })

/-- `FALL` (R125): the bit decision on `HCTR` as it stands, then its reset. -/
def execFall (s : State) : Host.Outcome State Fault Refusal :=
  answer s (resetRun (pulseStep (decodePulseCode (pulseCode s)) s))

/-- `LOW` (R126). -/
def execLow (s : State) : Host.Outcome State Fault Refusal := answer s (resetRun s)

/-- `HOLD` (R135), `PREV = CENTER`. -/
def execHoldPrev (s : State) : Host.Outcome State Fault Refusal := answer s (endRunStep false s)

/-- `HOLD` (R135), `s = CENTER`. -/
def execHoldCur (s : State) : Host.Outcome State Fault Refusal := answer s (endRunStep false s)

/-- `NOBIT` (R127), not in a frame: the pulse is ignored. -/
def execNobitInactive (s : State) : Host.Outcome State Fault Refusal := answer s (pulseStep .nobitInactive s)

/-- `NOBIT` (R127), too short: the pulse is ignored. -/
def execNobitShort (s : State) : Host.Outcome State Fault Refusal := answer s (pulseStep .nobitShort s)

/-- `BIT0` (R128). -/
def execBit0 (s : State) : Host.Outcome State Fault Refusal := answer s (pulseStep .bit0 s)

/-- `BIT1` (R129). -/
def execBit1 (s : State) : Host.Outcome State Fault Refusal := answer s (pulseStep .bit1 s)

/-- `BYTECLOSE` (R130). -/
def execByteClose (s : State) : Host.Outcome State Fault Refusal := answer s (closeByte s)

/-- `STALE` (R133). -/
def execStale (s : State) : Host.Outcome State Fault Refusal := answer s (dropStale s)

/-- `PRE2ACT` (R134). -/
def execPre2act (s : State) : Host.Outcome State Fault Refusal := answer s (startFrame s)

end Sys2Proof.Machine
end

