-- ==== Sys2Proof/Machine/Tracker.lean ====
section
/-! DEFINITION. The Wave-Center Tracker (40_center_tracker.md). -/

namespace Sys2Proof.Machine

/-- `WARM` (R100). -/
def execWarm (s : State) : Host.Outcome State Fault Refusal :=
  answer s (endStep { s with sum := s.sum + s.sample.toInt, wcnt := s.wcnt + 1 })

/-- `CAL` (R101). -/
def execCal (s : State) : Host.Outcome State Fault Refusal :=
  answer s (endStep (calibrate s))

end Sys2Proof.Machine
end

