-- ==== Sys2Proof/Machine/Units.lean ====
section
/-! DEFINITION. The function units outside the step: `PW2B` (43_pulse_to_bytes.md) and `ASM16` (20_memory.md R52). -/

namespace Sys2Proof.Machine

/-- The locals of `PW2B` (R180): `out`, `cur`, `nb`. -/
structure Pw2bLocals where
  out : List Byte
  cur : Byte
  nb : Nat
  deriving DecidableEq, Repr

/-- The body of `PW2B`'s loop for one width, after its stop test (R180). -/
def pw2bWidth (c : Cfg) (w : Nat) (x : Pw2bLocals) : Pw2bLocals :=
  if c.minLowBit < w then
    let cur := shiftIn x.cur (decide (c.minHighBit < w))
    if x.nb + 1 = 8 then ⟨x.out ++ [cur], 0, 0⟩ else ⟨x.out, cur, x.nb + 1⟩
  else x

/-- `PW2B`'s loop (R180). It stops before a width once `count` bytes are out. -/
def pw2bLoop (c : Cfg) (count : Nat) : List Nat → Pw2bLocals → Pw2bLocals
  | [], x => x
  | w :: ws, x => if x.out.length = count then x else pw2bLoop c count ws (pw2bWidth c w x)

/-- `PW2B(widths, N)` (R180). Bits left over are dropped (decision D20). -/
def pw2b (c : Cfg) (widths : List Nat) (count : Nat) : List Byte :=
  (pw2bLoop c count widths ⟨[], 0, 0⟩).out

/-- `enc` of R181 for one byte: from bit 7 to bit 0, `MINHIGHBIT + 1` for a 1 and `MINLOWBIT + 1` for a 0. -/
def widthsOfByte (c : Cfg) (b : Byte) : List Nat :=
  [b[7], b[6], b[5], b[4], b[3], b[2], b[1], b[0]].map fun x =>
    if x then c.minHighBit + 1 else c.minLowBit + 1

/-- `enc(B)` of R181. -/
def widthsOfBytes (c : Cfg) (bs : List Byte) : List Nat := bs.flatMap (widthsOfByte c)

/-- The clock cycle that presents a sample (10_state.md R38). -/
def present (x : Sample) : Stim := .cycle ⟨false, true, x⟩

/-- `PW2B` (R180): the result leaves on the unit's own output; the block is neither read nor written. -/
def execPw2b (widths : List Nat) (count : Nat) (s : State) : Host.Outcome State Fault Refusal :=
  answer s { s with result := some (pw2b s.cfg widths count) }

/-- `ASM16` (R52): the sample the two bytes make is the next the block is given. -/
def execAsm16 (l h : Byte) (s : State) : Host.Outcome State Fault Refusal :=
  answer s { s with stim := present (sampleOfBytes l h) :: s.stim }

end Sys2Proof.Machine
end

