-- ==== Sys2Proof/Machine/Validator.lean ====
section
/-! DEFINITION. The Frame Validator (42_frame_validator.md) and the entry into recalibration (60_exceptions.md R196). -/

namespace Sys2Proof.Machine

/-- `VALIDATE` (R160). -/
def execValidate (s : State) : Host.Outcome State Fault Refusal := answer s (validateFrame s)

/-- `DECODE` (R162 to R165). -/
def execDecode (s : State) : Host.Outcome State Fault Refusal := answer s (decodeReading s)

/-- `RECAL` (R196). -/
def execRecal (s : State) : Host.Outcome State Fault Refusal := answer s (recalibrate s)

/-- `divisor = 32768 / 2^e` in exact rational arithmetic (R164). -/
def divisor (e : Int) : ℚ := 32768 / (2 : ℚ) ^ e

/-- `watts = CFG.VREF * adc / divisor` (R164). -/
def watts (vref adc : Nat) (e : Int) : ℚ := vref * adc / divisor e

/-- The value of a `READING`'s pair: `w_mant * 2^w_exp` (R165). -/
def pairValue (wMant : Nat) (wExp : Int) : ℚ := wMant * (2 : ℚ) ^ wExp

end Sys2Proof.Machine
end

