-- ==== Sys2Proof/Machine/Dispatch.lean ====
section
/-! DEFINITION. What each operation does, one arm per row of the opcode table. -/

namespace Sys2Proof.Machine

def exec (i : Instr) (s : State) : Host.Outcome State Fault Refusal :=
  match i with
  | .warm => Sys2Proof.Machine.execWarm s
  | .cal => Sys2Proof.Machine.execCal s
  | .rise => Sys2Proof.Machine.execRise s
  | .high => Sys2Proof.Machine.execHigh s
  | .fall => Sys2Proof.Machine.execFall s
  | .low => Sys2Proof.Machine.execLow s
  | .holdPrev => Sys2Proof.Machine.execHoldPrev s
  | .holdCur => Sys2Proof.Machine.execHoldCur s
  | .nobitInactive => Sys2Proof.Machine.execNobitInactive s
  | .nobitShort => Sys2Proof.Machine.execNobitShort s
  | .bit0 => Sys2Proof.Machine.execBit0 s
  | .bit1 => Sys2Proof.Machine.execBit1 s
  | .byteClose => Sys2Proof.Machine.execByteClose s
  | .validate => Sys2Proof.Machine.execValidate s
  | .decode => Sys2Proof.Machine.execDecode s
  | .recal => Sys2Proof.Machine.execRecal s
  | .stale => Sys2Proof.Machine.execStale s
  | .pre2act => Sys2Proof.Machine.execPre2act s
  | .pw2b widths count => Sys2Proof.Machine.execPw2b widths count s
  | .asm16 l h => Sys2Proof.Machine.execAsm16 l h s

end Sys2Proof.Machine
end

