-- ==== Sys2Proof/Machine/Fetch.lean ====
section
/-! DEFINITION. What the next stimulus selects (30_encoding.md R76, 10_state.md R38), and the states in which a given
table word is what the next step runs. -/

namespace Sys2Proof.Machine

/-- What a step is to do. -/
inductive Fetch where
  /-- No operation: the step ends in this state. -/
  | settled (t : State)
  /-- Run this operation in this state. -/
  | run (i : Instr) (t : State)
  /-- No step. -/
  | refuse (r : Refusal)
  deriving DecidableEq, Repr

/-- The start of a step: the strobes of the last one are gone (10_state.md R38), and the stimulus moves on. -/
def openStep (s : State) (rest : List Stim) : State := { s with events := [], result := none, stim := rest }

/-- The sample of this cycle is on `s_data` (R38). -/
def latch (x : Sample) (s : State) : State := { s with sample := x }

/-- A sample is presented: the operation its class word selects (30_encoding.md R76). -/
def fetchSample (s : State) : Fetch :=
  match decodeClassWord (classWord s) with
  | .ok i => .run i s
  | .reject e => .refuse (.undecodable e)

/-- One clock cycle (R38): `rst` first (a sample presented with it is not consumed, 70_reset_and_hazards.md R221),
then the sample if `s_valid`, else all state is held. -/
def fetchCycle (p : Pins) (s : State) : Fetch :=
  if p.rst then .settled (resetBlock s)
  else if p.valid then fetchSample (latch p.data s)
  else .settled s

/-- What the next stimulus selects. With nothing presented the state is held, as in a cycle with `s_valid = 0`
(log entry 3). -/
def fetch (s : State) : Fetch :=
  if s.cfg.admitted then
    match s.stim with
    | [] => .settled (openStep s [])
    | .cycle p :: rest => fetchCycle p (openStep s rest)
    | .bytes l h :: rest => .run (.asm16 l h) (openStep s rest)
    | .call widths count :: rest => .run (.pw2b widths count) (openStep s rest)
  else .refuse .configNotAdmitted

/-- `s` with `CENTER` 0 and the previous and the presented sample at given places beside it, in `RUN`. -/
def withEdge (prev cur : Sample) (s : State) : State :=
  { s with phase := .run, center := 0, prev := prev, stim := present cur :: s.stim }

/-- A sample above, below or at a `CENTER` of 0, as the two bits of a class word say (R75). -/
def sampleBeside (above below : Bool) : Sample := if above then 1#16 else if below then 0xFFFF#16 else 0#16

/-- `s` prepared so that the class word of its next step is `w` (R75). A word in which `PREV` or the sample is
neither high nor low needs mode strict. -/
def withClassWord (w : BitVec 6) (s : State) : State :=
  if w[4] then
    withEdge (sampleBeside w[3] w[2]) (sampleBeside w[1] w[0])
      (if (w[3] || w[2]) && (w[1] || w[0]) then s else { s with cfg := { s.cfg with centerEqMode := .strict } })
  else
    { s with phase := .warmup
             wcnt := if w[5] then s.cfg.centerSamples - 1 else if s.cfg.centerSamples = 1 then 1 else 0
             stim := present 0 :: s.stim }

/-- A width count with the given bits `GL`, `GH` (30_encoding.md R77). -/
def countFor (c : Cfg) (gl gh : Bool) : Nat := if gh then c.minHighBit + 1 else if gl then c.minLowBit + 1 else 0

/-- `s` prepared so that its next step is a `FALL` whose pulse code is `w` (R77). -/
def withPulseCode (w : BitVec 3) (s : State) : State :=
  withEdge 1#16 0xFFFF#16 { s with active := w[2], hctr := countFor s.cfg w[1] w[0] }

/-- `s` prepared so that its next step is the `FALL` that completes and validates the frame `f`. -/
def withLastBitOf (f : Frame) (s : State) : State :=
  withEdge 1#16 0xFFFF#16
    { s with active := true, preamble := false, frame := f, curByte := f[7] >>> 1, bitPos := 7, byteCnt := 7
             totBits := 63, hctr := countFor s.cfg true f[7][0] }

/-- The valid frame whose bits 31:0 are `w` (30_encoding.md R73): byte 0 makes the checksum match. -/
def validFrameOf (w : BitVec 32) : Frame :=
  let f := frameOfWord (w.zeroExtend 64)
  f.set 0 (f[7] - checksumOf f)

/-- `s` prepared so that its next step runs the operation of a code. -/
def withCode (c : Code) (s : State) : State :=
  match c with
  | .cw w => withClassWord w s
  | .pw w => withPulseCode w s
  | .s16 first second => { s with stim := .bytes first second :: s.stim }
  | .wl widths count => { s with stim := .call widths count :: s.stim }
  | .selected _ => s

/-- `s` prepared so that its next step runs the operation of a table word (`parseTableWord`): a class word directly, a
pulse code inside a `FALL`, a frame inside the `FALL` that completes it (log entry 4). -/
def withTableWord (s : State) (nbits w : Nat) : State :=
  if nbits = 64 then withLastBitOf (frameOfWord (BitVec.ofNat 64 w)) s
  else if nbits = 32 then withLastBitOf (validFrameOf (BitVec.ofNat 32 w)) s
  else
    match parseTableWord nbits w with
    | .ok c => withCode c s
    | .reject _ => s

end Sys2Proof.Machine
end

