-- ==== Sys2Proof/Machine/Step.lean ====
section
/-! DEFINITION. One step of the machine (10_state.md R20): the next stimulus, and the operation it selects. -/

namespace Sys2Proof.Machine

/-- One step: what the next stimulus selects, run whole. -/
def step (s : State) : Host.Outcome State Fault Refusal :=
  match fetch s with
  | .settled t => .next t
  | .run i t => exec i t
  | .refuse r => .refused r

/-- `s` prepared so that its next step runs the table word (log entry 4). -/
def State.withFetchWord (s : State) (nbits w : Nat) : State := withTableWord s nbits w

end Sys2Proof.Machine
end

