-- ==== Sys2Proof/Machine/Ports.lean ====
section
/-! DEFINITION. The output ports (10_state.md R38), all functions of the state after the step and of its events. -/

namespace Sys2Proof.Machine

/-- The code of an event (60_exceptions.md R190). -/
def Event.code : Event → Nat
  | .ready _ => 0
  | .reading _ _ _ _ _ => 1
  | .mismatch _ _ => 2
  | .stale => 3

/-- The frame an event reports. -/
def Event.frame : Event → Option Frame
  | .ready _ => none
  | .reading f _ _ _ _ => some f
  | .mismatch f _ => some f
  | .stale => none

/-- The output ports in one cycle. A payload port is `none` in a cycle in which it is not valid. -/
structure Ports where
  /-- `ready`: `PHASE = RUN`. -/
  ready : Bool
  /-- `center[15:0]`. -/
  center : Sample
  /-- `stale_count`. -/
  staleCount : Nat
  /-- The strobes. -/
  evReady : Bool
  evReading : Bool
  evMismatch : Bool
  evStale : Bool
  /-- `frame[63:0]`, `FRAME[0]` in bits 63:56. -/
  frame : Option (BitVec 64)
  /-- `csum[7:0]`, the computed checksum. -/
  csum : Option Byte
  /-- `adc[15:0]`. -/
  adc : Option (BitVec 16)
  /-- `exp[7:0]`, two's complement. -/
  exp : Option Byte
  /-- `w_mant`, as wide as its value needs. -/
  wMant : Option Nat
  /-- `w_exp[8:0]`, two's complement. -/
  wExp : Option (BitVec 9)
  deriving DecidableEq, Repr

/-- Whether the step emitted an event with this code. -/
def strobe (s : State) (code : Nat) : Bool := s.events.any fun e => e.code == code

/-- The first `READING` of the step, as its payload. -/
def readingPayload : List Event → Option (Nat × Int × Nat × Int)
  | [] => none
  | .reading _ adc e wMant wExp :: _ => some (adc, e, wMant, wExp)
  | .ready _ :: es => readingPayload es
  | .mismatch _ _ :: es => readingPayload es
  | .stale :: es => readingPayload es

/-- The output ports after a step. -/
def portsOf (s : State) : Ports where
  ready := inRun s
  center := s.center
  staleCount := s.staleCount
  evReady := strobe s 0
  evReading := strobe s 1
  evMismatch := strobe s 2
  evStale := strobe s 3
  frame := (s.events.findSome? Event.frame).map frameWord
  csum := (s.events.findSome? Event.frame).map checksumOf
  adc := (readingPayload s.events).map fun x => BitVec.ofNat 16 x.1
  exp := (readingPayload s.events).map fun x => BitVec.ofInt 8 x.2.1
  wMant := (readingPayload s.events).map fun x => x.2.2.1
  wExp := (readingPayload s.events).map fun x => BitVec.ofInt 9 x.2.2.2

end Sys2Proof.Machine
end

