-- ==== Sys2Proof/Safety.lean ====
section
/-! DEFINITION. What claims about the block are stated in: the invariants of 10_state.md R40, safe steps,
observations (R20), and the relations between states and between a state and a width list. -/

namespace Sys2Proof.Machine

/-- A step from `s` ends in a next state: it neither faults nor refuses (60_exceptions.md R195). -/
def Safe (s : State) : Prop := ∃ t, step s = .next t

/-- The events of `k` steps from `s`, each tagged with `N` after its step (10_state.md R20, 60_exceptions.md R190). -/
def observe : Nat → State → List (Nat × Event)
  | 0, _ => []
  | k + 1, s =>
    match step s with
    | .next t => t.events.map (fun e => (t.n, e)) ++ observe k t
    | .fault _ => []
    | .refused _ => []

/-- `v` is high against `CENTER` (41_pulse_demodulator.md R120). -/
abbrev HighAt (s : State) (v : Sample) : Prop := s.center.toInt < v.toInt

/-- `v` is low against `CENTER` in the mode of the configuration (R120). -/
abbrev LowAt (s : State) (v : Sample) : Prop :=
  v.toInt < s.center.toInt ∨ (s.cfg.centerEqMode = .low ∧ v.toInt = s.center.toInt)

/-- A registers-empty frame state, `PREAMBLE` and `ACTIVE` aside. -/
abbrev NoBits (s : State) : Prop := s.curByte = 0 ∧ s.bitPos = 0 ∧ s.byteCnt = 0 ∧ s.totBits = 0

/-- The invariants of R40, with the bounds of R23 and R24. Clause (e) holds by the types of `bitPos` and `byteCnt`. -/
structure StepInv (s : State) : Prop where
  /-- The configuration is one the rules are stated for (00_scope.md R7). -/
  admitted : s.cfg.Admitted
  /-- (a): the demodulator is idle in `WARMUP`. -/
  idle : s.phase = .warmup → s.hctr = 0 ∧ s.preamble = false ∧ s.active = false ∧ NoBits s
  /-- (b): the tracker is idle in `RUN`. -/
  settled : s.phase = .run → s.wcnt = 0 ∧ s.sum = 0
  /-- (c): no bits outside a frame. -/
  inactive : s.active = false → NoBits s
  /-- (d): `TOTBITS = 8*BYTECNT + BITPOS`. -/
  total : s.totBits = 8 * s.byteCnt.val + s.bitPos.val
  /-- (f): `PREAMBLE = 1` implies `HCTR > CFG.PREAMBLE_COUNT`. -/
  long : s.preamble = true → s.cfg.preambleCount < s.hctr
  /-- (g): `CURBYTE < 2^BITPOS`. -/
  fits : s.curByte.toNat < 2 ^ s.bitPos.val
  /-- R24: `WCNT < CFG.CENTER_SAMPLES`. -/
  counted : s.wcnt < s.cfg.centerSamples
  /-- R23: `SUM` is a sum of `WCNT` samples. -/
  sumLow : -32768 * (s.wcnt : Int) ≤ s.sum
  sumHigh : s.sum ≤ 32767 * (s.wcnt : Int)

/-- What else holds in mode low (41_pulse_demodulator.md R123, R134): a set `PREAMBLE` means the previous sample was high,
and after a sample that was not high the high-run counter is 0. -/
def LowModeInv (s : State) : Prop :=
  (s.preamble = true → HighAt s s.prev) ∧ (s.phase = .run → ¬ HighAt s s.prev → s.hctr = 0)

/-- The start of a warm-up: the state after reset and after a mismatch (40_center_tracker.md R102). -/
abbrev WarmStart (s : State) : Prop :=
  s.phase = .warmup ∧ s.wcnt = 0 ∧ s.sum = 0

/-- The sum of bytes 0 to 6 as a natural number (42_frame_validator.md R161). -/
def byteSum (f : Frame) : Nat :=
  f[0].toNat + f[1].toNat + f[2].toNat + f[3].toNat + f[4].toNat + f[5].toNat + f[6].toNat

/-- The byte whose bits are the first eight of a list, the first one bit 7 (30_encoding.md R79 (b)). -/
def byteOfBits (b7 b6 b5 b4 b3 b2 b1 b0 : Bool) : Byte :=
  BitVec.ofBool b7 ++ BitVec.ofBool b6 ++ BitVec.ofBool b5 ++ BitVec.ofBool b4 ++
    BitVec.ofBool b3 ++ BitVec.ofBool b2 ++ BitVec.ofBool b1 ++ BitVec.ofBool b0

/-- Whole bytes from a bit list, most significant bit first; one to seven bits left over are dropped. -/
def packBits : List Bool → List Byte
  | b7 :: b6 :: b5 :: b4 :: b3 :: b2 :: b1 :: b0 :: rest => byteOfBits b7 b6 b5 b4 b3 b2 b1 b0 :: packBits rest
  | _ => []

/-- The bits a width list stands for (30_encoding.md R74): widths up to `MINLOWBIT` stand for none. -/
def bitsOfWidths (c : Cfg) (widths : List Nat) : List Bool :=
  (widths.filter fun w => decide (c.minLowBit < w)).map fun w => decide (c.minHighBit < w)

/-- The bits received since the frame was created are those of `widths` (43_pulse_to_bytes.md R182): the closed bytes
and the byte in assembly are where `PW2B` would be after them. -/
def Tracks (s : State) (widths : List Nat) : Prop :=
  pw2bLoop s.cfg 8 widths ⟨[], 0, 0⟩ = ⟨s.frame.toList.take s.byteCnt.val, s.curByte, s.bitPos.val⟩

/-- The frame laid out on 64 bits: byte `i` in bits `63-8*i` down to `56-8*i` (30_encoding.md R73). -/
abbrev LaidOut (f : Frame) (w : BitVec 64) : Prop := ∀ i : Fin 8, w.extractLsb' (56 - 8 * i.val) 8 = f[i]

/-- The payload of a `READING` of the frame `f`: its fields (42_frame_validator.md R162, R163), its pair (R165), and that the
pair is the exact watts (R164) and fits the widths R165 and R38 give it. -/
structure ReadingExact (vref : Nat) (f : Frame) (adc : Nat) (e : Int) (wMant : Nat) (wExp : Int) : Prop where
  current : adc = 256 * f[4].toNat + f[5].toNat
  exponent : e = if f[6].toNat ≤ 127 then (f[6].toNat : Int) else (f[6].toNat : Int) - 256
  mantissa : wMant = vref * adc
  scale : wExp = e - 15
  exact : pairValue wMant wExp = watts vref adc e
  mantissaFits : wMant < 2 ^ (16 + Nat.size vref)
  scaleLow : -143 ≤ wExp
  scaleHigh : wExp ≤ 112
  bounded : watts vref adc e < (2 : ℚ) ^ (112 + 16 + Nat.size vref)
  notBelow : watts vref adc e = 0 ∨ (2 : ℚ) ^ (-143 : Int) ≤ watts vref adc e

/-- The four strobes, in the order of the event codes (60_exceptions.md R190). -/
abbrev strobesOf (p : Ports) : Bool × Bool × Bool × Bool := (p.evReady, p.evReading, p.evMismatch, p.evStale)

/-- The ports of a reported frame are not valid (10_state.md R38). -/
abbrev NoFramePorts (p : Ports) : Prop := p.frame = none ∧ p.csum = none

/-- The ports of a reading are not valid (R38). -/
abbrev NoReadingPorts (p : Ports) : Prop := p.adc = none ∧ p.exp = none ∧ p.wMant = none ∧ p.wExp = none

/-- Two states that differ at most in frame bytes not yet written since the frame was created (10_state.md R35). -/
def SameButStaleBytes (s s' : State) : Prop :=
  s' = { s with frame := s'.frame } ∧ ∀ i : Fin 8, i < s.byteCnt → s'.frame[i] = s.frame[i]

/-- A saturating high-run counter (10_state.md R26). -/
def saturate (ceiling : Nat) (s : State) : State := { s with hctr := min s.hctr ceiling }

/-- The same state under the other reading of equal samples (conflict C1). -/
def withMode (m : EqMode) (s : State) : State := { s with cfg := { s.cfg with centerEqMode := m } }

end Sys2Proof.Machine
end

