-- ==== Sys2Proof/Certificates/Slice0/Obligations.lean ====
section
/-! DEFINITION. The statements for the provers. Each is about the machine; none rests on a value the model chose
unless its docstring says so. -/

open Sys2Proof Sys2Proof.Machine

/-! ### Encoding and decode -/

/-- Words written out from the table's match columns (30_encoding.md R76, R77; 20_memory.md R52) decode to their rows;
words that are neither a class word some state forms nor a pulse code do not, the choice R80 (b) leaves to the decoder (log entry 19). -/
def Obligations.TableWordsDecodeToTheirRows : Prop :=
  decodeTableWord 8 0b000000 = some .warm ∧ decodeTableWord 8 0b100000 = some .cal ∧
  decodeTableWord 8 0b010110 = some .rise ∧ decodeTableWord 8 0b011010 = some .high ∧
  decodeTableWord 8 0b011001 = some .fall ∧ decodeTableWord 8 0b010101 = some .low ∧
  decodeTableWord 8 0b010000 = some .holdPrev ∧ decodeTableWord 8 0b011000 = some .holdCur ∧
  decodeTableWord 8 0b110 = some .bit0 ∧ decodeTableWord 8 0b111 = some .bit1 ∧
  decodeTableWord 8 0b011 = some .nobitInactive ∧ decodeTableWord 8 0b100 = some .nobitShort ∧
  decodeTableWord 16 0x03E8 = some (.asm16 0xE8 0x03) ∧
  decodeTableWord 8 0b110000 = none ∧ decodeTableWord 8 0b011111 = none

/-- The encoder and the decoder agree on every operation with every operand (R76 to R78), and the encoder gives only codes that some
state forms (R80). -/
def Obligations.DecodeInvertsEncode : Prop :=
  ∀ i : Instr, (encode i).reachable = true ∧ decode (encode i) = .ok i

/-- The class word of any state and sample selects the operation that the comparisons with `CENTER` name, in either
mode (30_encoding.md R75, R76; 41_pulse_demodulator.md R120). -/
def Obligations.ClassWordSelectsTheOperation : Prop :=
  ∀ s : State,
    (s.phase = .warmup →
      decodeClassWord (classWord s) = .ok (if s.wcnt + 1 = s.cfg.centerSamples then .cal else .warm)) ∧
    (s.phase = .run →
      (LowAt s s.prev → HighAt s s.sample → decodeClassWord (classWord s) = .ok .rise) ∧
      (HighAt s s.prev → HighAt s s.sample → decodeClassWord (classWord s) = .ok .high) ∧
      (HighAt s s.prev → LowAt s s.sample → decodeClassWord (classWord s) = .ok .fall) ∧
      (LowAt s s.prev → LowAt s s.sample → decodeClassWord (classWord s) = .ok .low) ∧
      (¬ HighAt s s.prev → ¬ LowAt s s.prev → decodeClassWord (classWord s) = .ok .holdPrev) ∧
      (HighAt s s.prev ∨ LowAt s s.prev → ¬ HighAt s s.sample → ¬ LowAt s s.sample →
        decodeClassWord (classWord s) = .ok .holdCur))

/-- Every class word a state forms matches rows of one mnemonic only, and at least one; in mode low none of them is
`HOLD` (R76). -/
def Obligations.ClassWordMatchesOneMnemonic : Prop :=
  ∀ s : State, ∃ i, decodeClassWord (classWord s) = .ok i ∧
    (∀ r ∈ classRows, r.hits (classWord s) = true → r.op.mnemonic = i.mnemonic) ∧
    (∃ r ∈ classRows, r.hits (classWord s) = true ∧ r.op = i) ∧
    (s.cfg.centerEqMode = .low → i.mnemonic ≠ "HOLD")

/-- The 64-bit value of a frame holds byte `i` in bits `63-8*i` down to `56-8*i`, and frame and value determine each other
(30_encoding.md R73). -/
def Obligations.FrameWordRoundTrip : Prop :=
  (∀ f : Frame, LaidOut f (frameWord f)) ∧ (∀ f : Frame, frameOfWord (frameWord f) = f) ∧ (∀ w : BitVec 64, frameWord (frameOfWord w) = w)

/-- The samples of a byte stream: one for every two bytes, the low byte first, two's complement; a last unpaired byte
gives none (20_memory.md R52). -/
def Obligations.ByteStreamGivesSamples : Prop :=
  ∀ bs : List Byte, (samplesOfBytes bs).length = bs.length / 2 ∧
    ∀ (k : Nat) (h : 2 * k + 1 < bs.length), ∃ x : Sample, (samplesOfBytes bs)[k]? = some x ∧
      x.toInt = (if bs[2 * k + 1].toNat < 128 then 256 * (bs[2 * k + 1].toNat : Int) + bs[2 * k].toNat
                 else 256 * (bs[2 * k + 1].toNat : Int) + bs[2 * k].toNat - 65536)

/-! ### The step around the operations -/

/-- A presented sample: the step is the operation its class word selects, run on the state that holds the sample, with the
strobes of the last step gone (10_state.md R20, R38). -/
def Obligations.StepRunsTheDecodedOperation : Prop :=
  ∀ (s : State) (x : Sample) (rest : List Stim) (i : Instr), s.cfg.Admitted →
    s.stim = .cycle ⟨false, true, x⟩ :: rest →
    decodeClassWord (classWord { s with events := [], result := none, stim := rest, sample := x }) = .ok i →
    step s = exec i { s with events := [], result := none, stim := rest, sample := x }

/-- The front end and the function unit are run on their own stimuli (20_memory.md R52, 43_pulse_to_bytes.md R180; the
stimulus list is the model's choice, log entry 3). -/
def Obligations.StepRunsTheUnitsCalled : Prop :=
  ∀ (s : State) (rest : List Stim), s.cfg.Admitted →
    (∀ l h, s.stim = .bytes l h :: rest →
      step s = exec (.asm16 l h) { s with events := [], result := none, stim := rest }) ∧
    (∀ widths count, s.stim = .call widths count :: rest →
      step s = exec (.pw2b widths count) { s with events := [], result := none, stim := rest })

/-- A cycle with `s_valid = 0` holds all state and strobes nothing (R38); so does a step with nothing presented, which is
the model's choice (log entry 3). -/
def Obligations.CycleWithoutSampleHoldsState : Prop :=
  ∀ (s : State), s.cfg.Admitted →
    (∀ x rest, s.stim = .cycle ⟨false, false, x⟩ :: rest →
      step s = .next { s with events := [], result := none, stim := rest }) ∧
    (s.stim = [] → step s = .next { s with events := [], result := none })

/-- `rst` puts every register at the value of R220 in one action, emits no event, and consumes no sample presented with it
(R221); `CFG` is not touched. That `sample`, `events`, `result` are emptied and `stim` kept is the model's choice (log entries 3, 6). -/
def Obligations.ResetReplacesTheState : Prop :=
  ∀ (s : State) (v : Bool) (x : Sample) (rest : List Stim), s.cfg.Admitted →
    s.stim = .cycle ⟨true, v, x⟩ :: rest →
    step s = .next
      { cfg := s.cfg, phase := .warmup, wcnt := 0, sum := 0, center := 0, prev := 0, hctr := 0, preamble := false,
        active := false, curByte := 0, bitPos := 0, byteCnt := 0, totBits := 0,
        frame := #v[0, 0, 0, 0, 0, 0, 0, 0], staleCount := 0, n := 0, sample := 0, events := [], result := none,
        stim := rest }

/-- The state after reset has the values of R220 and the defaults of R7 (`VREF` aside, which has none); its first sample
selects `WARM`. -/
def Obligations.ResetStateHoldsTheStatedValues : Prop :=
  State.reset.phase = .warmup ∧ State.reset.wcnt = 0 ∧ State.reset.sum = 0 ∧ State.reset.center = 0 ∧
  State.reset.prev = 0 ∧ State.reset.hctr = 0 ∧ State.reset.preamble = false ∧ State.reset.active = false ∧
  State.reset.curByte = 0 ∧ State.reset.bitPos = 0 ∧ State.reset.byteCnt = 0 ∧ State.reset.totBits = 0 ∧
  (∀ i : Fin 8, State.reset.frame[i] = 0) ∧ State.reset.staleCount = 0 ∧ State.reset.n = 0 ∧
  State.reset.cfg.centerSamples = 100 ∧ State.reset.cfg.preambleCount = 40 ∧ State.reset.cfg.minLowBit = 3 ∧
  State.reset.cfg.minHighBit = 8 ∧ State.reset.cfg.frameByteCount = 8 ∧ State.reset.cfg.frameBitCount = 64 ∧
  State.reset.cfg.centerEqMode = .low ∧ State.reset.cfg.analyzeByteCount = 9 ∧
  ∀ x : Sample, decodeClassWord (classWord { State.reset with sample := x }) = .ok .warm

/-- A configuration outside R7's constraints is refused, by every operation and by the step (decision D22). -/
def Obligations.OtherConfigurationsAreRefused : Prop :=
  ∀ s : State, ¬ s.cfg.Admitted →
    step s = .refused .configNotAdmitted ∧ ∀ i : Instr, exec i s = .refused .configNotAdmitted

/-- The step is total: with an admitted configuration every operation and every step answers a next state
(10_state.md R20, 60_exceptions.md R195). -/
def Obligations.EveryOperationAndStepCompletes : Prop :=
  ∀ s : State, s.cfg.Admitted → Safe s ∧ ∀ i : Instr, ∃ t, exec i s = .next t

/-- Every step that consumes a sample, in either phase, ends with `PREV <- s ; N <- N + 1` (41_pulse_demodulator.md R136). -/
def Obligations.EverySampleStepEndsAlike : Prop :=
  ∀ (s : State) (x : Sample) (rest : List Stim), s.cfg.Admitted → s.stim = .cycle ⟨false, true, x⟩ :: rest →
    ∃ t, step s = .next t ∧ t.prev = x ∧ t.n = s.n + 1

/-- Two raw bytes and then the step on the sample they make: the same as the step on that sample (20_memory.md R52). That
the front end takes a step of the model of its own is the model's choice (log entry 17). -/
def Obligations.ByteFrontEndPresentsItsSample : Prop :=
  ∀ (s t : State) (l h : Byte) (rest : List Stim), s.cfg.Admitted → s.stim = .bytes l h :: rest → step s = .next t →
    step t = step { s with stim := .cycle ⟨false, true, sampleOfBytes l h⟩ :: rest } ∧ t.n = s.n ∧ t.events = []

/-! ### The Wave-Center Tracker -/

/-- `WARM` adds the sample to `SUM` and counts it; nothing else but the step ending (40_center_tracker.md R100). -/
def Obligations.WarmSumsTheSample : Prop :=
  ∀ s : State, s.cfg.Admitted →
    exec .warm s = .next
      { s with sum := s.sum + s.sample.toInt, wcnt := s.wcnt + 1, prev := s.sample, n := s.n + 1 }

/-- `CAL` sets `CENTER` to the floor of the sum with the last sample over `CFG.CENTER_SAMPLES`, goes to `RUN`, clears the frame
state, `HCTR`, `WCNT` and `SUM`, emits `READY`, and leaves the rest (R101). The premises on `SUM` are the invariant of
`StepKeepsInvariants`: a sum of that many samples. -/
def Obligations.CalSetsCenterToTheFloor : Prop :=
  ∀ s : State, s.cfg.Admitted → s.wcnt + 1 = s.cfg.centerSamples →
    -32768 * (s.wcnt : Int) ≤ s.sum → s.sum ≤ 32767 * (s.wcnt : Int) →
    ∃ t, exec .cal s = .next t ∧
      s.cfg.centerSamples * t.center.toInt ≤ s.sum + s.sample.toInt ∧
      s.sum + s.sample.toInt < s.cfg.centerSamples * (t.center.toInt + 1) ∧
      t = { s with center := t.center, phase := .run, preamble := false, active := false, curByte := 0, bitPos := 0,
                   byteCnt := 0, totBits := 0, hctr := 0, wcnt := 0, sum := 0, prev := s.sample, n := s.n + 1,
                   events := s.events ++ [.ready t.center] }

/-- From the start of a warm-up, the next `CFG.CENTER_SAMPLES` samples, whatever they are, end in `RUN` with `CENTER` the floor of
their mean and the event `READY`, and not one sample sooner (R102; 60_exceptions.md R197, R198). -/
def Obligations.WarmupAveragesExactlyItsSamples : Prop :=
  ∀ (s : State) (xs : List Sample) (rest : List Stim), s.cfg.Admitted → WarmStart s →
    xs.length = s.cfg.centerSamples → s.stim = xs.map present ++ rest →
    (∀ k, 0 < k → k < xs.length →
      ∃ u, Host.Core.run core k s = .next u ∧ u.phase = .warmup ∧ u.events = [] ∧ u.center = s.center) ∧
    ∃ t, Host.Core.run core xs.length s = .next t ∧ t.phase = .run ∧ t.stim = rest ∧ t.n = s.n + xs.length ∧
      t.events = [.ready t.center] ∧ t.wcnt = 0 ∧ t.sum = 0 ∧
      s.cfg.centerSamples * t.center.toInt ≤ (xs.map BitVec.toInt).sum ∧
      (xs.map BitVec.toInt).sum < s.cfg.centerSamples * (t.center.toInt + 1)

/-- `CENTER` is written by `CAL` and by nothing else (R103, 10_state.md R22): a step without `rst` that changes it consumed the last
sample of a warm-up. -/
def Obligations.OnlyCalWritesCenter : Prop :=
  ∀ s t : State, step s = .next t → t.center ≠ s.center →
    (∃ x rest, s.stim = .cycle ⟨false, true, x⟩ :: rest ∧ s.phase = .warmup ∧ s.wcnt + 1 = s.cfg.centerSamples ∧
      t.events = [.ready t.center]) ∨
    (∃ v x rest, s.stim = .cycle ⟨true, v, x⟩ :: rest)

/-- In `WARMUP` no rule reads `CENTER`: two states that differ only in it step alike, and after the `CAL` they agree
(10_state.md R22, decision D13). -/
def Obligations.CenterIsUnreadInWarmup : Prop :=
  ∀ (s t : State) (c : Sample), s.phase = .warmup → step s = .next t →
    ∃ t', step { s with center := c } = .next t' ∧ t' = { t with center := t'.center } ∧ (t.phase = .run → t' = t)

/-! ### The Pulse-Width Demodulator: edge operations -/

/-- `RISE` and `LOW` reset the high-run counter; if `PREAMBLE` is set they start an empty frame, else nothing else changes but
the step ending (41_pulse_demodulator.md R122, R123, R126, R134). -/
def Obligations.RiseAndLowResetTheRun : Prop :=
  ∀ (s : State) (i : Instr), s.cfg.Admitted → i = .rise ∨ i = .low →
    (s.preamble = false → exec i s = .next { s with hctr := 0, prev := s.sample, n := s.n + 1 }) ∧
    (s.preamble = true → exec i s = .next
      { s with hctr := 0, preamble := false, active := true, curByte := 0, bitPos := 0, byteCnt := 0, totBits := 0,
               prev := s.sample, n := s.n + 1 })

/-- `HIGH` counts the sample and sets `PREAMBLE` when the count after the increment exceeds `CFG.PREAMBLE_COUNT`; it never clears
it (R124). -/
def Obligations.HighCountsAndMarksThePreamble : Prop :=
  ∀ s : State, s.cfg.Admitted →
    (s.cfg.preambleCount < s.hctr + 1 → exec .high s = .next
      { s with hctr := s.hctr + 1, preamble := true, prev := s.sample, n := s.n + 1 }) ∧
    (¬ s.cfg.preambleCount < s.hctr + 1 → exec .high s = .next
      { s with hctr := s.hctr + 1, prev := s.sample, n := s.n + 1 })

/-- `HOLD` does nothing but the step ending (R135). -/
def Obligations.HoldOnlyEndsTheStep : Prop :=
  ∀ s : State, s.cfg.Admitted →
    exec .holdPrev s = .next { s with prev := s.sample, n := s.n + 1 } ∧
    exec .holdCur s = .next { s with prev := s.sample, n := s.n + 1 }

/-- `FALL` runs the micro-operation its pulse selects, on `HCTR` as it stands, then resets `HCTR`, makes the PRE2ACT test and ends the
step (R125, R127 to R129; 30_encoding.md R77). -/
def Obligations.FallDecidesThenResets : Prop :=
  ∀ s : State, s.cfg.Admitted →
    ∃ (i : Instr) (u : State),
      i = (if s.active = false then .nobitInactive
           else if s.hctr ≤ s.cfg.minLowBit then .nobitShort
           else if s.hctr ≤ s.cfg.minHighBit then .bit0 else .bit1) ∧
      exec i s = .next u ∧
      (u.preamble = false → exec .fall s = .next { u with hctr := 0, prev := s.sample, n := s.n + 1 }) ∧
      (u.preamble = true → exec .fall s = .next
        { u with hctr := 0, preamble := false, active := true, curByte := 0, bitPos := 0, byteCnt := 0, totBits := 0,
                 prev := s.sample, n := s.n + 1 })

/-- In mode low the two facts of R123 and R134 hold along steps: a set `PREAMBLE` means the previous sample was high, and a previous
sample that was not high means `HCTR = 0`; so the PRE2ACT test can succeed only in a `FALL`. -/
def Obligations.LowModeStartsFramesOnlyAtFall : Prop :=
  ∀ s t : State, s.cfg.centerEqMode = .low → StepInv s → LowModeInv s → step s = .next t →
    LowModeInv t ∧
    (s.active = false → t.active = true →
      ∃ x rest, s.stim = .cycle ⟨false, true, x⟩ :: rest ∧ HighAt s s.prev ∧ LowAt s x)

/-- A run of `L` high samples after a low one leaves the width count `L - 1`, the run's length minus one, and after a high one adds
`L`; `PREAMBLE` is set iff the count exceeded the threshold, and no other register but `PREV` and `N` changes (R131). -/
def Obligations.WidthCountIsRunLengthMinusOne : Prop :=
  ∀ (s : State) (xs : List Sample) (rest : List Stim), s.cfg.Admitted → s.phase = .run → s.preamble = false → xs ≠ [] →
    (∀ x ∈ xs, HighAt s x) → s.stim = xs.map present ++ rest →
    (LowAt s s.prev →
      ∃ t, Host.Core.run core xs.length s = .next t ∧
        t = { s with hctr := xs.length - 1, preamble := decide (s.cfg.preambleCount < xs.length - 1), prev := t.prev,
                     n := s.n + xs.length, sample := t.prev, events := [], result := none, stim := rest } ∧
        xs.getLast? = some t.prev) ∧
    (HighAt s s.prev →
      ∃ t, Host.Core.run core xs.length s = .next t ∧
        t = { s with hctr := s.hctr + xs.length, preamble := decide (s.cfg.preambleCount < s.hctr + xs.length),
                     prev := t.prev, n := s.n + xs.length, sample := t.prev, events := [], result := none,
                     stim := rest } ∧
        xs.getLast? = some t.prev)

/-! ### The Pulse-Width Demodulator: micro-operations -/

/-- `NOBIT` changes nothing: no register, no event, no counter (R127). -/
def Obligations.NobitChangesNothing : Prop :=
  ∀ s : State, s.cfg.Admitted → exec .nobitInactive s = .next s ∧ exec .nobitShort s = .next s

/-- `BIT0` and `BIT1` shift their bit in at bit 0 of `CURBYTE` and count it. Short of a whole byte and within the bit budget nothing
else happens; over the budget the frame is discarded as stale; with the eighth bit the byte is closed, and the guard is then tested
unless the frame completed (R122, R128, R129, R133). -/
def Obligations.BitsShiftInMostSignificantFirst : Prop :=
  ∀ (s : State) (b : Bool), s.cfg.Admitted → ∃ u : State,
    u = { s with curByte := u.curByte, totBits := s.totBits + 1 } ∧
    u.curByte.toNat = (2 * s.curByte.toNat + b.toNat) % 256 ∧
    (s.bitPos.val < 7 → s.totBits + 1 ≤ s.cfg.frameBitCount →
      ∃ t, exec (if b then .bit1 else .bit0) s = .next t ∧ t.bitPos.val = s.bitPos.val + 1 ∧
        t = { u with bitPos := t.bitPos }) ∧
    (s.bitPos.val < 7 → s.cfg.frameBitCount < s.totBits + 1 →
      exec (if b then .bit1 else .bit0) s = exec .stale u) ∧
    (s.bitPos.val = 7 → s.byteCnt.val = 7 → exec (if b then .bit1 else .bit0) s = exec .byteClose u) ∧
    (s.bitPos.val = 7 → s.byteCnt.val < 7 → s.totBits + 1 ≤ s.cfg.frameBitCount →
      exec (if b then .bit1 else .bit0) s = exec .byteClose u) ∧
    (s.bitPos.val = 7 → s.byteCnt.val < 7 → s.cfg.frameBitCount < s.totBits + 1 →
      ∃ v, exec .byteClose u = .next v ∧ exec (if b then .bit1 else .bit0) s = exec .stale v)

/-- `BYTECLOSE` stores `CURBYTE` at `FRAME[BYTECNT]` and in no other byte, steps `BYTECNT`, clears `BITPOS` and `CURBYTE`; after the last
byte it is `VALIDATE` of the frame so completed (R130, R132). -/
def Obligations.ByteCloseStoresOneByte : Prop :=
  ∀ s : State, s.cfg.Admitted → ∃ f : Frame,
    (∀ i : Fin 8, f[i] = if i = s.byteCnt then s.curByte else s.frame[i]) ∧
    (s.byteCnt.val < 7 → ∃ t, exec .byteClose s = .next t ∧ t.byteCnt.val = s.byteCnt.val + 1 ∧
      t = { s with frame := f, byteCnt := t.byteCnt, bitPos := 0, curByte := 0 }) ∧
    (s.byteCnt.val = 7 →
      exec .byteClose s = exec .validate { s with frame := f, byteCnt := 0, bitPos := 0, curByte := 0 })

/-- `STALE` clears the frame state, counts and says so; it does not recalibrate (R133, 60_exceptions.md R193). -/
def Obligations.StaleDiscardsAndCounts : Prop :=
  ∀ s : State, s.cfg.Admitted → exec .stale s = .next
    { s with preamble := false, active := false, curByte := 0, bitPos := 0, byteCnt := 0, totBits := 0,
             staleCount := s.staleCount + 1, events := s.events ++ [.stale] }

/-- `PRE2ACT` clears `PREAMBLE`, sets `ACTIVE` and creates the frame empty; `FRAME` is not cleared (R134). -/
def Obligations.PreambleEndStartsAnEmptyFrame : Prop :=
  ∀ s : State, s.cfg.Admitted → exec .pre2act s = .next
    { s with preamble := false, active := true, curByte := 0, bitPos := 0, byteCnt := 0, totBits := 0 }

/-- A preamble-long pulse inside a frame: its bit first goes into the frame in assembly; if that completes the frame or trips the guard,
the frame ends with one event, and else a new frame starts empty and no event marks the one discarded (R137). -/
def Obligations.LongPulseRestartsTheFrame : Prop :=
  ∀ s : State, StepInv s → s.active = true → s.preamble = true →
    ∃ t, exec .fall s = .next t ∧ t.hctr = 0 ∧ t.preamble = false ∧ NoBits t ∧
      (s.bitPos.val = 7 ∧ s.byteCnt.val = 7 →
        t.active = false ∧ t.staleCount = s.staleCount ∧ ∃ f : Frame,
          f[7].toNat = (2 * s.curByte.toNat + 1) % 256 ∧ (∀ i : Fin 8, i.val < 7 → f[i] = s.frame[i]) ∧
          t.events = s.events ++ [verdict s.cfg f]) ∧
      (¬ (s.bitPos.val = 7 ∧ s.byteCnt.val = 7) → s.cfg.frameBitCount < s.totBits + 1 →
        t.active = false ∧ t.events = s.events ++ [.stale] ∧ t.staleCount = s.staleCount + 1) ∧
      (¬ (s.bitPos.val = 7 ∧ s.byteCnt.val = 7) → s.totBits + 1 ≤ s.cfg.frameBitCount →
        t.active = true ∧ t.events = s.events ∧ t.staleCount = s.staleCount)

/-! ### The Frame Validator -/

/-- `VALIDATE` of a frame whose checksum matches emits one `READING` with the fields of R162 to R165 and clears the frame state; of any
other frame it emits one `MISMATCH` with the computed checksum, returns to warm-up and clears the frame state; `FRAME` is left as it is
(42_frame_validator.md R160, R161; 60_exceptions.md R192, R196). -/
def Obligations.ValidateReportsEachFrameOnce : Prop :=
  ∀ s : State, s.cfg.Admitted →
    (byteSum s.frame % 256 = s.frame[7].toNat → exec .validate s = .next
      { s with preamble := false, active := false, curByte := 0, bitPos := 0, byteCnt := 0, totBits := 0,
               events := s.events ++
                 [.reading s.frame (256 * s.frame[4].toNat + s.frame[5].toNat) s.frame[6].toInt
                   (s.cfg.vref * (256 * s.frame[4].toNat + s.frame[5].toNat)) (s.frame[6].toInt - 15)] }) ∧
    (byteSum s.frame % 256 ≠ s.frame[7].toNat → ∃ cs : Byte, cs.toNat = byteSum s.frame % 256 ∧ exec .validate s = .next
      { s with phase := .warmup, wcnt := 0, sum := 0, preamble := false, active := false, curByte := 0, bitPos := 0,
               byteCnt := 0, totBits := 0, events := s.events ++ [.mismatch s.frame cs] })

/-- `DECODE` emits the `READING` of the frame buffer: `adc` big-endian in 0 to 65535, `e` the two's complement value of byte 6 in -128 to
127, `w_mant = VREF*adc`, `w_exp = e - 15` in -143 to 112; nothing else changes (R162, R163, R165). -/
def Obligations.DecodeReadsTheFrameFields : Prop :=
  ∀ s : State, s.cfg.Admitted → ∃ (adc : Nat) (e : Int),
    exec .decode s = .next { s with events := s.events ++ [.reading s.frame adc e (s.cfg.vref * adc) (e - 15)] } ∧
    adc = 256 * s.frame[4].toNat + s.frame[5].toNat ∧ adc ≤ 65535 ∧
    (s.frame[6].toNat ≤ 127 → e = s.frame[6].toNat) ∧ (127 < s.frame[6].toNat → e = (s.frame[6].toNat : Int) - 256) ∧
    -128 ≤ e ∧ e ≤ 127 ∧ -143 ≤ e - 15 ∧ e - 15 ≤ 112

/-- The `READING` that `DECODE` emits in any state, and every `READING` that any step emits, carries the pair of R165: `w_mant` and
`w_exp` are `VREF * adc` and `e - 15` within their widths, and their value is exactly the watts of R164, no less than `2^-143` unless 0.
Those watts, `VREF * adc / divisor` with `divisor = 32768 / 2^e`, are `VREF * adc * 2^(e-15)`; the divisor is the positive power of two
`2^(15-e)`, between `2^-112` and `2^143` for an exponent byte; `watts` is never negative and zero iff `adc` or `VREF` is. A `VREF` below
`2^37` leaves `w_mant` in the 53 bits of an IEEE double (R164, R165). -/
def Obligations.ReadingPairIsTheExactWatts : Prop :=
  (∀ s : State, s.cfg.Admitted → ∃ (adc : Nat) (e : Int) (wMant : Nat) (wExp : Int),
    exec .decode s = .next { s with events := s.events ++ [.reading s.frame adc e wMant wExp] } ∧
    ReadingExact s.cfg.vref s.frame adc e wMant wExp ∧ (s.cfg.vref < 2 ^ 37 → wMant < 2 ^ 53)) ∧
  (∀ (s t : State) (f : Frame) (adc : Nat) (e : Int) (wMant : Nat) (wExp : Int), step s = .next t →
    .reading f adc e wMant wExp ∈ t.events → ReadingExact s.cfg.vref f adc e wMant wExp) ∧
  ∀ (vref adc : Nat) (e : Int),
    divisor e = 32768 / (2 : ℚ) ^ e ∧ watts vref adc e = vref * adc / divisor e ∧
    watts vref adc e = vref * adc * (2 : ℚ) ^ (e - 15) ∧ pairValue (vref * adc) (e - 15) = watts vref adc e ∧
    divisor e = (2 : ℚ) ^ (15 - e) ∧ 0 < divisor e ∧
    (-128 ≤ e → e ≤ 127 → (2 : ℚ) ^ (-112 : Int) ≤ divisor e ∧ divisor e ≤ (2 : ℚ) ^ (143 : Int)) ∧
    0 ≤ watts vref adc e ∧ (watts vref adc e = 0 ↔ adc = 0 ∨ vref = 0)

/-- `RECAL` returns to warm-up with nothing summed; `CENTER` keeps its old value, and nothing is saved (60_exceptions.md R196). -/
def Obligations.RecalReturnsToWarmup : Prop :=
  ∀ s : State, s.cfg.Admitted → exec .recal s = .next { s with phase := .warmup, wcnt := 0, sum := 0 }

/-! ### The function units -/

/-- `PW2B` returns the whole bytes of the bits its widths stand for, at most `N` of them, bits left over dropped, on its own output;
it changes nothing of the block (43_pulse_to_bytes.md R180). -/
def Obligations.Pw2bPacksTheBitsOfItsWidths : Prop :=
  ∀ (s : State) (widths : List Nat) (count : Nat), s.cfg.Admitted →
    exec (.pw2b widths count) s = .next
      { s with result := some ((packBits (bitsOfWidths s.cfg widths)).take count) }

/-- `PW2B` of a list that encodes `B`, with any widths up to `MINLOWBIT` inserted anywhere, is `B`, if `B` is no longer than `N` and the
thresholds differ (R181). -/
def Obligations.Pw2bInvertsTheEncoding : Prop :=
  ∀ (c : Cfg) (bs : List Byte) (widths : List Nat) (count : Nat), c.minLowBit < c.minHighBit → bs.length ≤ count →
    (widths.filter fun w => decide (c.minLowBit < w)) = widthsOfBytes c bs → pw2b c widths count = bs

/-- `ASM16` hands the block the sample `sext_16(256*h + l)` as the next one presented, and changes nothing else (20_memory.md R52; that
it goes to the head of the stimulus is the model's choice, log entry 17). -/
def Obligations.Asm16MakesOneSample : Prop :=
  ∀ (s : State) (l h : Byte), s.cfg.Admitted → ∃ x : Sample,
    x.toInt = (if h.toNat < 128 then 256 * (h.toNat : Int) + l.toNat else 256 * (h.toNat : Int) + l.toNat - 65536) ∧
    exec (.asm16 l h) s = .next { s with stim := .cycle ⟨false, true, x⟩ :: s.stim }

/-- The streaming demodulator is `PW2B` fed one width at a time (43_pulse_to_bytes.md R182): a `FALL` in a frame whose bits are those of a
width list either leaves a frame whose bits are those of the list with the new width count added, or hands over exactly the frame
`PW2B` makes of that list. The premises are the invariants, no pending restart, and a guard that cannot fire. -/
def Obligations.DemodulatorIsPw2bOneWidthAtATime : Prop :=
  ∀ (s : State) (widths : List Nat), StepInv s → s.active = true → s.preamble = false → 63 ≤ s.cfg.frameBitCount →
    Tracks s widths →
    ∃ t, exec .fall s = .next t ∧
      ((t.active = true ∧ Tracks t (widths ++ [s.hctr]) ∧ t.events = s.events) ∨
       (t.active = false ∧ ∃ f : Frame, pw2b s.cfg (widths ++ [s.hctr]) 8 = f.toList ∧ t.frame = f ∧
          t.events = s.events ++ [verdict s.cfg f]))

/-- Between the falling edges nothing of the frame changes, and a new frame has received no width: with the statement above, the frame
handed over is `PW2B` of all width counts since the frame was created (R182). -/
def Obligations.OtherEdgesKeepTheFrame : Prop :=
  ∀ (s : State) (i : Instr), s.cfg.Admitted → i = .rise ∨ i = .high ∨ i = .low ∨ i = .holdPrev ∨ i = .holdCur →
    ∃ t, exec i s = .next t ∧ t.frame = s.frame ∧ t.events = s.events ∧
      ((s.preamble = false ∨ i = .high ∨ i = .holdPrev ∨ i = .holdCur) →
        t.active = s.active ∧ ∀ widths, Tracks s widths → Tracks t widths) ∧
      ((s.preamble = true ∧ (i = .rise ∨ i = .low)) → t.active = true ∧ Tracks t [])

/-! ### Whole-machine rules -/

/-- The state after reset, with any admitted configuration and any stimulus, meets the invariants (10_state.md R40). -/
def Obligations.ResetMeetsInvariants : Prop :=
  ∀ (c : Cfg) (stim : List Stim), c.Admitted →
    StepInv (resetWith c stim) ∧ LowModeInv (resetWith c stim)

/-- Every step keeps the invariants of R40 and the bounds of R23 and R24. -/
def Obligations.StepKeepsInvariants : Prop :=
  ∀ s t : State, StepInv s → step s = .next t → StepInv t

/-- From the reset state and under every stimulus, the invariants of R40 hold after any number of steps. -/
def Obligations.RunsFromResetKeepInvariants : Prop :=
  ∀ (c : Cfg) (stim : List Stim) (k : Nat), c.Admitted →
    ∃ t, Host.Core.run core k (resetWith c stim) = .next t ∧ StepInv t

/-- No operation writes `CFG`, and no step does (10_state.md R36, 20_memory.md R58). -/
def Obligations.ConfigurationIsNeverWritten : Prop :=
  ∀ s t : State, (step s = .next t → t.cfg = s.cfg) ∧ ∀ i : Instr, exec i s = .next t → t.cfg = s.cfg

/-- A step emits at most one event; `READY` only in `WARMUP`, the other three only in `RUN` (60_exceptions.md R199). -/
def Obligations.StepEmitsAtMostOneEvent : Prop :=
  ∀ s t : State, step s = .next t → t.events.length ≤ 1 ∧
    ∀ e ∈ t.events, (s.phase = .warmup ↔ ∃ c, e = .ready c)

/-- `PHASE` goes from `WARMUP` to `RUN` exactly with the event `READY`, and from `RUN` to `WARMUP` exactly with `MISMATCH`; nothing else but
`rst` writes it (10_state.md R32). -/
def Obligations.PhaseChangesWithItsEvents : Prop :=
  ∀ s t : State, step s = .next t → (∀ v x rest, s.stim ≠ .cycle ⟨true, v, x⟩ :: rest) →
    (s.phase = .warmup → (t.phase = .run ↔ ∃ c, .ready c ∈ t.events)) ∧
    (s.phase = .run → (t.phase = .warmup ↔ ∃ f cs, .mismatch f cs ∈ t.events))

/-- `STALE_COUNT` goes up by one exactly with the event `STALE`, and nothing else but `rst` writes it (10_state.md R31). -/
def Obligations.StaleCountCountsStaleEvents : Prop :=
  ∀ s t : State, step s = .next t → (∀ v x rest, s.stim ≠ .cycle ⟨true, v, x⟩ :: rest) →
    t.staleCount = s.staleCount + (if .stale ∈ t.events then 1 else 0)

/-- With a bit budget of at least 63 the stale guard never fires from a state that meets the invariants (41_pulse_demodulator.md R133, 93 U3). -/
def Obligations.StaleIsUnreachableWithTheDefaultBudget : Prop :=
  ∀ s t : State, StepInv s → 63 ≤ s.cfg.frameBitCount → step s = .next t → .stale ∉ t.events

/-- `FRAME` is written only at `FRAME[BYTECNT]`, by a `FALL` that shifts in the eighth bit of a byte (10_state.md R35). -/
def Obligations.OnlyTheEighthBitWritesTheFrame : Prop :=
  ∀ s t : State, step s = .next t → (∀ v x rest, s.stim ≠ .cycle ⟨true, v, x⟩ :: rest) → t.frame ≠ s.frame →
    s.active = true ∧ s.bitPos.val = 7 ∧ s.cfg.minLowBit < s.hctr ∧
    (∃ x rest, s.stim = .cycle ⟨false, true, x⟩ :: rest ∧ s.phase = .run ∧ HighAt s s.prev ∧ LowAt s x) ∧
    ∀ i : Fin 8, i ≠ s.byteCnt → t.frame[i] = s.frame[i]

/-- Frame bytes not written since the frame was created are never observed: states that differ only in them step alike, events included
(10_state.md R35, 70_reset_and_hazards.md R220). -/
def Obligations.UnwrittenFrameBytesAreUnobservable : Prop :=
  ∀ s s' t : State, SameButStaleBytes s s' → step s = .next t → ∃ t', step s' = .next t' ∧ SameButStaleBytes t t'

/-- A high-run counter that saturates at any ceiling above `CFG.PREAMBLE_COUNT` is indistinguishable from the unbounded one: the steps
agree in everything, events included, but the part of the count above the ceiling (10_state.md R26). -/
def Obligations.SaturatingCounterIsIndistinguishable : Prop :=
  ∀ (s t : State) (ceiling : Nat), s.cfg.preambleCount + 1 ≤ ceiling → step s = .next t →
    ∃ u, step (saturate ceiling s) = .next u ∧ saturate ceiling u = saturate ceiling t

/-- The two readings of an equal sample agree on every step in which neither the previous nor the presented sample equals `CENTER`
(41_pulse_demodulator.md R120, 70_reset_and_hazards.md R237). -/
def Obligations.ModesAgreeOffCenter : Prop :=
  ∀ s t : State,
    (s.phase = .run → s.prev ≠ s.center ∧ ∀ v x rest, s.stim = .cycle ⟨false, v, x⟩ :: rest → x ≠ s.center) →
    step (withMode .low s) = .next t → step (withMode .strict s) = .next (withMode .strict t)

/-- A constant stream gives one `READY` of its value at the end of the warm-up and never another event, a pulse or a frame, in either
mode (41_pulse_demodulator.md R138). -/
def Obligations.ConstantStreamNeverEmitsAFrame : Prop :=
  ∀ (s : State) (x : Sample) (k : Nat) (rest : List Stim), s.cfg.Admitted → WarmStart s →
    s.stim = List.replicate (s.cfg.centerSamples + k) (present x) ++ rest →
    ∃ t, Host.Core.run core (s.cfg.centerSamples + k) s = .next t ∧ t.phase = .run ∧ t.center = x ∧ t.hctr = 0 ∧
      t.preamble = false ∧ t.active = false ∧ t.events = (if k = 0 then [.ready x] else [])

/-- `ready`, `center` and `stale_count` follow the state; each strobe is set exactly by its event; `frame` and `csum` are valid exactly
with `ev_reading` or `ev_mismatch`, the ports of a reading exactly with `ev_reading`; and they hold the event's values whole: the
frame with byte `i` in bits `63-8*i` down to `56-8*i`, the computed checksum, `adc`, `exp`, `w_mant` and `w_exp` in 16, 8, `16 + bits(VREF)`
and 9 bits (10_state.md R38, 30_encoding.md R73, 42_frame_validator.md R165). -/
def Obligations.PortsCarryTheEvent : Prop :=
  ∀ s : State,
    ((portsOf s).ready = true ↔ s.phase = .run) ∧ (portsOf s).center = s.center ∧ (portsOf s).staleCount = s.staleCount ∧
    ((portsOf s).evReady = true ↔ ∃ c, .ready c ∈ s.events) ∧
    ((portsOf s).evReading = true ↔ ∃ f adc e wMant wExp, .reading f adc e wMant wExp ∈ s.events) ∧
    ((portsOf s).evMismatch = true ↔ ∃ f cs, .mismatch f cs ∈ s.events) ∧
    ((portsOf s).evStale = true ↔ .stale ∈ s.events) ∧
    ((portsOf s).evReading = false → (portsOf s).evMismatch = false → NoFramePorts (portsOf s)) ∧
    ((portsOf s).evReading = false → NoReadingPorts (portsOf s)) ∧
    (s.events = [] → strobesOf (portsOf s) = (false, false, false, false) ∧
      NoFramePorts (portsOf s) ∧ NoReadingPorts (portsOf s)) ∧
    (∀ c, s.events = [.ready c] → strobesOf (portsOf s) = (true, false, false, false) ∧
      NoFramePorts (portsOf s) ∧ NoReadingPorts (portsOf s)) ∧
    (s.events = [.stale] → strobesOf (portsOf s) = (false, false, false, true) ∧
      NoFramePorts (portsOf s) ∧ NoReadingPorts (portsOf s)) ∧
    (∀ f, s.events = [.mismatch f (checksumOf f)] → strobesOf (portsOf s) = (false, false, true, false) ∧
      (∃ w, (portsOf s).frame = some w ∧ LaidOut f w) ∧
      (∃ cs : Byte, (portsOf s).csum = some cs ∧ cs.toNat = byteSum f % 256) ∧ NoReadingPorts (portsOf s)) ∧
    (∀ f, s.events = [readingOf s.cfg f] → strobesOf (portsOf s) = (false, true, false, false) ∧
      (∃ w, (portsOf s).frame = some w ∧ LaidOut f w) ∧
      (∃ cs : Byte, (portsOf s).csum = some cs ∧ cs.toNat = byteSum f % 256) ∧
      (∃ a : BitVec 16, (portsOf s).adc = some a ∧ a.toNat = 256 * f[4].toNat + f[5].toNat) ∧
      (portsOf s).exp = some f[6] ∧
      (∃ m, (portsOf s).wMant = some m ∧ m = s.cfg.vref * (256 * f[4].toNat + f[5].toNat) ∧
        m < 2 ^ (16 + Nat.size s.cfg.vref)) ∧
      ∃ w : BitVec 9, (portsOf s).wExp = some w ∧ w.toInt = f[6].toInt - 15)
end

