-- ==== Sys2Proof/Laws/Operands.lean ====
section
/-! SUPPORT. The assembled values as numbers (30_encoding.md R79). -/

namespace Sys2Proof.Machine

theorem append_byte_toNat {n : Nat} (a : BitVec n) (b : Byte) : (a ++ b).toNat = 256 * a.toNat + b.toNat := by
  rw [BitVec.toNat_append, Nat.shiftLeft_eq, Nat.mul_comm, ← Nat.two_pow_add_eq_or_of_lt b.isLt]

theorem sampleOfBytes_toNat (l h : Byte) : (sampleOfBytes l h).toNat = 256 * h.toNat + l.toNat :=
  append_byte_toNat h l

theorem sampleOfBytes_toInt (l h : Byte) : (sampleOfBytes l h).toInt =
    if h.toNat < 128 then 256 * (h.toNat : Int) + l.toNat else 256 * (h.toNat : Int) + l.toNat - 65536 := by
  have := l.isLt
  have := h.isLt
  rw [BitVec.toInt_eq_toNat_cond, sampleOfBytes_toNat]
  split <;> split <;> omega

theorem frameWord_toNat (f : Frame) : (frameWord f).toNat =
    256 * (256 * (256 * (256 * (256 * (256 * (256 * f[0].toNat + f[1].toNat) + f[2].toNat) + f[3].toNat) + f[4].toNat)
      + f[5].toNat) + f[6].toNat) + f[7].toNat := by
  unfold frameWord
  refine (append_byte_toNat (f[0] ++ f[1] ++ f[2] ++ f[3] ++ f[4] ++ f[5] ++ f[6]) f[7]).trans ?_
  simp only [append_byte_toNat]

theorem shiftIn_toNat (c : Byte) (b : Bool) : (shiftIn c b).toNat = (2 * c.toNat + b.toNat) % 256 := by
  cases b <;> simp [shiftIn, BitVec.toNat_add, BitVec.toNat_mul]

theorem checksumOf_toNat (f : Frame) : (checksumOf f).toNat =
    (f[0].toNat + f[1].toNat + f[2].toNat + f[3].toNat + f[4].toNat + f[5].toNat + f[6].toNat) % 256 := by
  simp [checksumOf, BitVec.toNat_add]

/-- The defining property of the floor (00_scope.md R8). -/
theorem floorDiv_spec (a : Int) {b : Nat} (h : 1 ≤ b) : b * floorDiv a b ≤ a ∧ a < b * (floorDiv a b + 1) := by
  have hb : (0 : Int) < b := by omega
  unfold floorDiv
  rw [Int.fdiv_eq_ediv_of_nonneg a hb.le]
  have h1 := Int.mul_ediv_add_emod a b
  have h2 := Int.emod_nonneg a hb.ne'
  have h3 := Int.emod_lt_of_pos a hb
  constructor
  · omega
  · rw [mul_add, mul_one]; omega

end Sys2Proof.Machine
end

