-- ==== Sys2Proof/Laws/State.lean ====
section
/-! SUPPORT. What each record update does to each field, true by `rfl`. -/

namespace Sys2Proof.Machine

@[simp] theorem emit_cfg (e : Event) (s : State) : (emit e s).cfg = s.cfg := rfl
@[simp] theorem emit_phase (e : Event) (s : State) : (emit e s).phase = s.phase := rfl
@[simp] theorem emit_wcnt (e : Event) (s : State) : (emit e s).wcnt = s.wcnt := rfl
@[simp] theorem emit_sum (e : Event) (s : State) : (emit e s).sum = s.sum := rfl
@[simp] theorem emit_center (e : Event) (s : State) : (emit e s).center = s.center := rfl
@[simp] theorem emit_prev (e : Event) (s : State) : (emit e s).prev = s.prev := rfl
@[simp] theorem emit_hctr (e : Event) (s : State) : (emit e s).hctr = s.hctr := rfl
@[simp] theorem emit_preamble (e : Event) (s : State) : (emit e s).preamble = s.preamble := rfl
@[simp] theorem emit_active (e : Event) (s : State) : (emit e s).active = s.active := rfl
@[simp] theorem emit_curByte (e : Event) (s : State) : (emit e s).curByte = s.curByte := rfl
@[simp] theorem emit_bitPos (e : Event) (s : State) : (emit e s).bitPos = s.bitPos := rfl
@[simp] theorem emit_byteCnt (e : Event) (s : State) : (emit e s).byteCnt = s.byteCnt := rfl
@[simp] theorem emit_totBits (e : Event) (s : State) : (emit e s).totBits = s.totBits := rfl
@[simp] theorem emit_frame (e : Event) (s : State) : (emit e s).frame = s.frame := rfl
@[simp] theorem emit_staleCount (e : Event) (s : State) : (emit e s).staleCount = s.staleCount := rfl
@[simp] theorem emit_n (e : Event) (s : State) : (emit e s).n = s.n := rfl
@[simp] theorem emit_sample (e : Event) (s : State) : (emit e s).sample = s.sample := rfl
@[simp] theorem emit_events (e : Event) (s : State) : (emit e s).events = s.events ++ [e] := rfl
@[simp] theorem emit_result (e : Event) (s : State) : (emit e s).result = s.result := rfl
@[simp] theorem emit_stim (e : Event) (s : State) : (emit e s).stim = s.stim := rfl

@[simp] theorem clearFrameState_cfg (s : State) : (clearFrameState s).cfg = s.cfg := rfl
@[simp] theorem clearFrameState_phase (s : State) : (clearFrameState s).phase = s.phase := rfl
@[simp] theorem clearFrameState_wcnt (s : State) : (clearFrameState s).wcnt = s.wcnt := rfl
@[simp] theorem clearFrameState_sum (s : State) : (clearFrameState s).sum = s.sum := rfl
@[simp] theorem clearFrameState_center (s : State) : (clearFrameState s).center = s.center := rfl
@[simp] theorem clearFrameState_prev (s : State) : (clearFrameState s).prev = s.prev := rfl
@[simp] theorem clearFrameState_hctr (s : State) : (clearFrameState s).hctr = s.hctr := rfl
@[simp] theorem clearFrameState_preamble (s : State) : (clearFrameState s).preamble = false := rfl
@[simp] theorem clearFrameState_active (s : State) : (clearFrameState s).active = false := rfl
@[simp] theorem clearFrameState_curByte (s : State) : (clearFrameState s).curByte = 0 := rfl
@[simp] theorem clearFrameState_bitPos (s : State) : (clearFrameState s).bitPos = 0 := rfl
@[simp] theorem clearFrameState_byteCnt (s : State) : (clearFrameState s).byteCnt = 0 := rfl
@[simp] theorem clearFrameState_totBits (s : State) : (clearFrameState s).totBits = 0 := rfl
@[simp] theorem clearFrameState_frame (s : State) : (clearFrameState s).frame = s.frame := rfl
@[simp] theorem clearFrameState_staleCount (s : State) : (clearFrameState s).staleCount = s.staleCount := rfl
@[simp] theorem clearFrameState_n (s : State) : (clearFrameState s).n = s.n := rfl
@[simp] theorem clearFrameState_sample (s : State) : (clearFrameState s).sample = s.sample := rfl
@[simp] theorem clearFrameState_events (s : State) : (clearFrameState s).events = s.events := rfl
@[simp] theorem clearFrameState_result (s : State) : (clearFrameState s).result = s.result := rfl
@[simp] theorem clearFrameState_stim (s : State) : (clearFrameState s).stim = s.stim := rfl

@[simp] theorem recalibrate_cfg (s : State) : (recalibrate s).cfg = s.cfg := rfl
@[simp] theorem recalibrate_phase (s : State) : (recalibrate s).phase = .warmup := rfl
@[simp] theorem recalibrate_wcnt (s : State) : (recalibrate s).wcnt = 0 := rfl
@[simp] theorem recalibrate_sum (s : State) : (recalibrate s).sum = 0 := rfl
@[simp] theorem recalibrate_center (s : State) : (recalibrate s).center = s.center := rfl
@[simp] theorem recalibrate_prev (s : State) : (recalibrate s).prev = s.prev := rfl
@[simp] theorem recalibrate_hctr (s : State) : (recalibrate s).hctr = s.hctr := rfl
@[simp] theorem recalibrate_preamble (s : State) : (recalibrate s).preamble = s.preamble := rfl
@[simp] theorem recalibrate_active (s : State) : (recalibrate s).active = s.active := rfl
@[simp] theorem recalibrate_curByte (s : State) : (recalibrate s).curByte = s.curByte := rfl
@[simp] theorem recalibrate_bitPos (s : State) : (recalibrate s).bitPos = s.bitPos := rfl
@[simp] theorem recalibrate_byteCnt (s : State) : (recalibrate s).byteCnt = s.byteCnt := rfl
@[simp] theorem recalibrate_totBits (s : State) : (recalibrate s).totBits = s.totBits := rfl
@[simp] theorem recalibrate_frame (s : State) : (recalibrate s).frame = s.frame := rfl
@[simp] theorem recalibrate_staleCount (s : State) : (recalibrate s).staleCount = s.staleCount := rfl
@[simp] theorem recalibrate_n (s : State) : (recalibrate s).n = s.n := rfl
@[simp] theorem recalibrate_sample (s : State) : (recalibrate s).sample = s.sample := rfl
@[simp] theorem recalibrate_events (s : State) : (recalibrate s).events = s.events := rfl
@[simp] theorem recalibrate_result (s : State) : (recalibrate s).result = s.result := rfl
@[simp] theorem recalibrate_stim (s : State) : (recalibrate s).stim = s.stim := rfl

@[simp] theorem dropStale_cfg (s : State) : (dropStale s).cfg = s.cfg := rfl
@[simp] theorem dropStale_phase (s : State) : (dropStale s).phase = s.phase := rfl
@[simp] theorem dropStale_wcnt (s : State) : (dropStale s).wcnt = s.wcnt := rfl
@[simp] theorem dropStale_sum (s : State) : (dropStale s).sum = s.sum := rfl
@[simp] theorem dropStale_center (s : State) : (dropStale s).center = s.center := rfl
@[simp] theorem dropStale_prev (s : State) : (dropStale s).prev = s.prev := rfl
@[simp] theorem dropStale_hctr (s : State) : (dropStale s).hctr = s.hctr := rfl
@[simp] theorem dropStale_preamble (s : State) : (dropStale s).preamble = false := rfl
@[simp] theorem dropStale_active (s : State) : (dropStale s).active = false := rfl
@[simp] theorem dropStale_curByte (s : State) : (dropStale s).curByte = 0 := rfl
@[simp] theorem dropStale_bitPos (s : State) : (dropStale s).bitPos = 0 := rfl
@[simp] theorem dropStale_byteCnt (s : State) : (dropStale s).byteCnt = 0 := rfl
@[simp] theorem dropStale_totBits (s : State) : (dropStale s).totBits = 0 := rfl
@[simp] theorem dropStale_frame (s : State) : (dropStale s).frame = s.frame := rfl
@[simp] theorem dropStale_staleCount (s : State) : (dropStale s).staleCount = s.staleCount + 1 := rfl
@[simp] theorem dropStale_n (s : State) : (dropStale s).n = s.n := rfl
@[simp] theorem dropStale_sample (s : State) : (dropStale s).sample = s.sample := rfl
@[simp] theorem dropStale_events (s : State) : (dropStale s).events = s.events ++ [.stale] := rfl
@[simp] theorem dropStale_result (s : State) : (dropStale s).result = s.result := rfl
@[simp] theorem dropStale_stim (s : State) : (dropStale s).stim = s.stim := rfl

@[simp] theorem startFrame_cfg (s : State) : (startFrame s).cfg = s.cfg := rfl
@[simp] theorem startFrame_phase (s : State) : (startFrame s).phase = s.phase := rfl
@[simp] theorem startFrame_wcnt (s : State) : (startFrame s).wcnt = s.wcnt := rfl
@[simp] theorem startFrame_sum (s : State) : (startFrame s).sum = s.sum := rfl
@[simp] theorem startFrame_center (s : State) : (startFrame s).center = s.center := rfl
@[simp] theorem startFrame_prev (s : State) : (startFrame s).prev = s.prev := rfl
@[simp] theorem startFrame_hctr (s : State) : (startFrame s).hctr = s.hctr := rfl
@[simp] theorem startFrame_preamble (s : State) : (startFrame s).preamble = false := rfl
@[simp] theorem startFrame_active (s : State) : (startFrame s).active = true := rfl
@[simp] theorem startFrame_curByte (s : State) : (startFrame s).curByte = 0 := rfl
@[simp] theorem startFrame_bitPos (s : State) : (startFrame s).bitPos = 0 := rfl
@[simp] theorem startFrame_byteCnt (s : State) : (startFrame s).byteCnt = 0 := rfl
@[simp] theorem startFrame_totBits (s : State) : (startFrame s).totBits = 0 := rfl
@[simp] theorem startFrame_frame (s : State) : (startFrame s).frame = s.frame := rfl
@[simp] theorem startFrame_staleCount (s : State) : (startFrame s).staleCount = s.staleCount := rfl
@[simp] theorem startFrame_n (s : State) : (startFrame s).n = s.n := rfl
@[simp] theorem startFrame_sample (s : State) : (startFrame s).sample = s.sample := rfl
@[simp] theorem startFrame_events (s : State) : (startFrame s).events = s.events := rfl
@[simp] theorem startFrame_result (s : State) : (startFrame s).result = s.result := rfl
@[simp] theorem startFrame_stim (s : State) : (startFrame s).stim = s.stim := rfl

@[simp] theorem endStep_cfg (s : State) : (endStep s).cfg = s.cfg := rfl
@[simp] theorem endStep_phase (s : State) : (endStep s).phase = s.phase := rfl
@[simp] theorem endStep_wcnt (s : State) : (endStep s).wcnt = s.wcnt := rfl
@[simp] theorem endStep_sum (s : State) : (endStep s).sum = s.sum := rfl
@[simp] theorem endStep_center (s : State) : (endStep s).center = s.center := rfl
@[simp] theorem endStep_prev (s : State) : (endStep s).prev = s.sample := rfl
@[simp] theorem endStep_hctr (s : State) : (endStep s).hctr = s.hctr := rfl
@[simp] theorem endStep_preamble (s : State) : (endStep s).preamble = s.preamble := rfl
@[simp] theorem endStep_active (s : State) : (endStep s).active = s.active := rfl
@[simp] theorem endStep_curByte (s : State) : (endStep s).curByte = s.curByte := rfl
@[simp] theorem endStep_bitPos (s : State) : (endStep s).bitPos = s.bitPos := rfl
@[simp] theorem endStep_byteCnt (s : State) : (endStep s).byteCnt = s.byteCnt := rfl
@[simp] theorem endStep_totBits (s : State) : (endStep s).totBits = s.totBits := rfl
@[simp] theorem endStep_frame (s : State) : (endStep s).frame = s.frame := rfl
@[simp] theorem endStep_staleCount (s : State) : (endStep s).staleCount = s.staleCount := rfl
@[simp] theorem endStep_n (s : State) : (endStep s).n = s.n + 1 := rfl
@[simp] theorem endStep_sample (s : State) : (endStep s).sample = s.sample := rfl
@[simp] theorem endStep_events (s : State) : (endStep s).events = s.events := rfl
@[simp] theorem endStep_result (s : State) : (endStep s).result = s.result := rfl
@[simp] theorem endStep_stim (s : State) : (endStep s).stim = s.stim := rfl

@[simp] theorem openStep_cfg (rest : List Stim) (s : State) : (openStep s rest).cfg = s.cfg := rfl
@[simp] theorem openStep_phase (rest : List Stim) (s : State) : (openStep s rest).phase = s.phase := rfl
@[simp] theorem openStep_wcnt (rest : List Stim) (s : State) : (openStep s rest).wcnt = s.wcnt := rfl
@[simp] theorem openStep_sum (rest : List Stim) (s : State) : (openStep s rest).sum = s.sum := rfl
@[simp] theorem openStep_center (rest : List Stim) (s : State) : (openStep s rest).center = s.center := rfl
@[simp] theorem openStep_prev (rest : List Stim) (s : State) : (openStep s rest).prev = s.prev := rfl
@[simp] theorem openStep_hctr (rest : List Stim) (s : State) : (openStep s rest).hctr = s.hctr := rfl
@[simp] theorem openStep_preamble (rest : List Stim) (s : State) : (openStep s rest).preamble = s.preamble := rfl
@[simp] theorem openStep_active (rest : List Stim) (s : State) : (openStep s rest).active = s.active := rfl
@[simp] theorem openStep_curByte (rest : List Stim) (s : State) : (openStep s rest).curByte = s.curByte := rfl
@[simp] theorem openStep_bitPos (rest : List Stim) (s : State) : (openStep s rest).bitPos = s.bitPos := rfl
@[simp] theorem openStep_byteCnt (rest : List Stim) (s : State) : (openStep s rest).byteCnt = s.byteCnt := rfl
@[simp] theorem openStep_totBits (rest : List Stim) (s : State) : (openStep s rest).totBits = s.totBits := rfl
@[simp] theorem openStep_frame (rest : List Stim) (s : State) : (openStep s rest).frame = s.frame := rfl
@[simp] theorem openStep_staleCount (rest : List Stim) (s : State) : (openStep s rest).staleCount = s.staleCount := rfl
@[simp] theorem openStep_n (rest : List Stim) (s : State) : (openStep s rest).n = s.n := rfl
@[simp] theorem openStep_sample (rest : List Stim) (s : State) : (openStep s rest).sample = s.sample := rfl
@[simp] theorem openStep_events (rest : List Stim) (s : State) : (openStep s rest).events = [] := rfl
@[simp] theorem openStep_result (rest : List Stim) (s : State) : (openStep s rest).result = none := rfl
@[simp] theorem openStep_stim (rest : List Stim) (s : State) : (openStep s rest).stim = rest := rfl

@[simp] theorem resetBlock_cfg (s : State) : (resetBlock s).cfg = s.cfg := rfl
@[simp] theorem resetBlock_phase (s : State) : (resetBlock s).phase = .warmup := rfl
@[simp] theorem resetBlock_wcnt (s : State) : (resetBlock s).wcnt = 0 := rfl
@[simp] theorem resetBlock_sum (s : State) : (resetBlock s).sum = 0 := rfl
@[simp] theorem resetBlock_center (s : State) : (resetBlock s).center = 0 := rfl
@[simp] theorem resetBlock_prev (s : State) : (resetBlock s).prev = 0 := rfl
@[simp] theorem resetBlock_hctr (s : State) : (resetBlock s).hctr = 0 := rfl
@[simp] theorem resetBlock_preamble (s : State) : (resetBlock s).preamble = false := rfl
@[simp] theorem resetBlock_active (s : State) : (resetBlock s).active = false := rfl
@[simp] theorem resetBlock_curByte (s : State) : (resetBlock s).curByte = 0 := rfl
@[simp] theorem resetBlock_bitPos (s : State) : (resetBlock s).bitPos = 0 := rfl
@[simp] theorem resetBlock_byteCnt (s : State) : (resetBlock s).byteCnt = 0 := rfl
@[simp] theorem resetBlock_totBits (s : State) : (resetBlock s).totBits = 0 := rfl
@[simp] theorem resetBlock_frame (s : State) : (resetBlock s).frame = Vector.replicate 8 0 := rfl
@[simp] theorem resetBlock_staleCount (s : State) : (resetBlock s).staleCount = 0 := rfl
@[simp] theorem resetBlock_n (s : State) : (resetBlock s).n = 0 := rfl
@[simp] theorem resetBlock_sample (s : State) : (resetBlock s).sample = 0 := rfl
@[simp] theorem resetBlock_events (s : State) : (resetBlock s).events = [] := rfl
@[simp] theorem resetBlock_result (s : State) : (resetBlock s).result = none := rfl
@[simp] theorem resetBlock_stim (s : State) : (resetBlock s).stim = s.stim := rfl

@[simp] theorem decodeReading_cfg (s : State) : (decodeReading s).cfg = s.cfg := rfl
@[simp] theorem decodeReading_phase (s : State) : (decodeReading s).phase = s.phase := rfl
@[simp] theorem decodeReading_wcnt (s : State) : (decodeReading s).wcnt = s.wcnt := rfl
@[simp] theorem decodeReading_sum (s : State) : (decodeReading s).sum = s.sum := rfl
@[simp] theorem decodeReading_center (s : State) : (decodeReading s).center = s.center := rfl
@[simp] theorem decodeReading_prev (s : State) : (decodeReading s).prev = s.prev := rfl
@[simp] theorem decodeReading_hctr (s : State) : (decodeReading s).hctr = s.hctr := rfl
@[simp] theorem decodeReading_preamble (s : State) : (decodeReading s).preamble = s.preamble := rfl
@[simp] theorem decodeReading_active (s : State) : (decodeReading s).active = s.active := rfl
@[simp] theorem decodeReading_curByte (s : State) : (decodeReading s).curByte = s.curByte := rfl
@[simp] theorem decodeReading_bitPos (s : State) : (decodeReading s).bitPos = s.bitPos := rfl
@[simp] theorem decodeReading_byteCnt (s : State) : (decodeReading s).byteCnt = s.byteCnt := rfl
@[simp] theorem decodeReading_totBits (s : State) : (decodeReading s).totBits = s.totBits := rfl
@[simp] theorem decodeReading_frame (s : State) : (decodeReading s).frame = s.frame := rfl
@[simp] theorem decodeReading_staleCount (s : State) : (decodeReading s).staleCount = s.staleCount := rfl
@[simp] theorem decodeReading_n (s : State) : (decodeReading s).n = s.n := rfl
@[simp] theorem decodeReading_sample (s : State) : (decodeReading s).sample = s.sample := rfl
@[simp] theorem decodeReading_events (s : State) : (decodeReading s).events = s.events ++ [readingOf s.cfg s.frame] := rfl
@[simp] theorem decodeReading_result (s : State) : (decodeReading s).result = s.result := rfl
@[simp] theorem decodeReading_stim (s : State) : (decodeReading s).stim = s.stim := rfl

@[simp] theorem latch_cfg (x : Sample) (s : State) : (latch x s).cfg = s.cfg := rfl
@[simp] theorem latch_phase (x : Sample) (s : State) : (latch x s).phase = s.phase := rfl
@[simp] theorem latch_wcnt (x : Sample) (s : State) : (latch x s).wcnt = s.wcnt := rfl
@[simp] theorem latch_sum (x : Sample) (s : State) : (latch x s).sum = s.sum := rfl
@[simp] theorem latch_center (x : Sample) (s : State) : (latch x s).center = s.center := rfl
@[simp] theorem latch_prev (x : Sample) (s : State) : (latch x s).prev = s.prev := rfl
@[simp] theorem latch_hctr (x : Sample) (s : State) : (latch x s).hctr = s.hctr := rfl
@[simp] theorem latch_preamble (x : Sample) (s : State) : (latch x s).preamble = s.preamble := rfl
@[simp] theorem latch_active (x : Sample) (s : State) : (latch x s).active = s.active := rfl
@[simp] theorem latch_curByte (x : Sample) (s : State) : (latch x s).curByte = s.curByte := rfl
@[simp] theorem latch_bitPos (x : Sample) (s : State) : (latch x s).bitPos = s.bitPos := rfl
@[simp] theorem latch_byteCnt (x : Sample) (s : State) : (latch x s).byteCnt = s.byteCnt := rfl
@[simp] theorem latch_totBits (x : Sample) (s : State) : (latch x s).totBits = s.totBits := rfl
@[simp] theorem latch_frame (x : Sample) (s : State) : (latch x s).frame = s.frame := rfl
@[simp] theorem latch_staleCount (x : Sample) (s : State) : (latch x s).staleCount = s.staleCount := rfl
@[simp] theorem latch_n (x : Sample) (s : State) : (latch x s).n = s.n := rfl
@[simp] theorem latch_sample (x : Sample) (s : State) : (latch x s).sample = x := rfl
@[simp] theorem latch_events (x : Sample) (s : State) : (latch x s).events = s.events := rfl
@[simp] theorem latch_result (x : Sample) (s : State) : (latch x s).result = s.result := rfl
@[simp] theorem latch_stim (x : Sample) (s : State) : (latch x s).stim = s.stim := rfl

@[simp] theorem resetWith_cfg (c : Cfg) (stim : List Stim) : (resetWith c stim).cfg = c := rfl
@[simp] theorem resetWith_phase (c : Cfg) (stim : List Stim) : (resetWith c stim).phase = .warmup := rfl
@[simp] theorem resetWith_wcnt (c : Cfg) (stim : List Stim) : (resetWith c stim).wcnt = 0 := rfl
@[simp] theorem resetWith_sum (c : Cfg) (stim : List Stim) : (resetWith c stim).sum = 0 := rfl
@[simp] theorem resetWith_center (c : Cfg) (stim : List Stim) : (resetWith c stim).center = 0 := rfl
@[simp] theorem resetWith_prev (c : Cfg) (stim : List Stim) : (resetWith c stim).prev = 0 := rfl
@[simp] theorem resetWith_hctr (c : Cfg) (stim : List Stim) : (resetWith c stim).hctr = 0 := rfl
@[simp] theorem resetWith_preamble (c : Cfg) (stim : List Stim) : (resetWith c stim).preamble = false := rfl
@[simp] theorem resetWith_active (c : Cfg) (stim : List Stim) : (resetWith c stim).active = false := rfl
@[simp] theorem resetWith_curByte (c : Cfg) (stim : List Stim) : (resetWith c stim).curByte = 0 := rfl
@[simp] theorem resetWith_bitPos (c : Cfg) (stim : List Stim) : (resetWith c stim).bitPos = 0 := rfl
@[simp] theorem resetWith_byteCnt (c : Cfg) (stim : List Stim) : (resetWith c stim).byteCnt = 0 := rfl
@[simp] theorem resetWith_totBits (c : Cfg) (stim : List Stim) : (resetWith c stim).totBits = 0 := rfl
@[simp] theorem resetWith_frame (c : Cfg) (stim : List Stim) : (resetWith c stim).frame = Vector.replicate 8 0 := rfl
@[simp] theorem resetWith_staleCount (c : Cfg) (stim : List Stim) : (resetWith c stim).staleCount = 0 := rfl
@[simp] theorem resetWith_n (c : Cfg) (stim : List Stim) : (resetWith c stim).n = 0 := rfl
@[simp] theorem resetWith_sample (c : Cfg) (stim : List Stim) : (resetWith c stim).sample = 0 := rfl
@[simp] theorem resetWith_events (c : Cfg) (stim : List Stim) : (resetWith c stim).events = [] := rfl
@[simp] theorem resetWith_result (c : Cfg) (stim : List Stim) : (resetWith c stim).result = none := rfl
@[simp] theorem resetWith_stim (c : Cfg) (stim : List Stim) : (resetWith c stim).stim = stim := rfl

end Sys2Proof.Machine
end

