-- ==== Sys2Proof/Laws/Ops.lean ====
section
/-! SUPPORT. One lemma per shared operation that says once what it does, for citing instead of unfolding. -/

namespace Sys2Proof.Machine

/-! ### Configurations -/

theorem admitted_iff (c : Cfg) : c.Admitted ↔
    1 ≤ c.centerSamples ∧ c.minLowBit ≤ c.minHighBit ∧ c.minHighBit ≤ c.preambleCount ∧ c.frameByteCount = 8 := by
  simp [Cfg.Admitted, Cfg.admitted]

/-! ### The answer of a meaning -/

theorem answer_of_admitted {s : State} (h : s.cfg.Admitted) (t : State) : answer s t = .next t := if_pos h

theorem answer_next {s t u : State} (h : answer s t = .next u) : s.cfg.Admitted ∧ u = t := by
  unfold answer at h
  split at h
  · cases h; exact ⟨‹_›, rfl⟩
  · cases h

/-! ### Codes -/

/-- The micro-operation a falling edge selects, as the conditions of 30_encoding.md R77. -/
theorem decodePulseCode_pulseCode (s : State) :
    decodePulseCode (pulseCode s) =
      if s.active = false then .nobitInactive
      else if s.hctr ≤ s.cfg.minLowBit then .nobitShort
      else if s.hctr ≤ s.cfg.minHighBit then .bit0 else .bit1 := by
  have key : ∀ a l h : Bool, decodePulseCode (BitVec.ofBool a ++ BitVec.ofBool l ++ BitVec.ofBool h) =
      if a = false then .nobitInactive else if l = false then .nobitShort else if h = false then .bit0 else .bit1 := by
    decide
  simp only [pulseCode, key, decide_eq_false_iff_not, Nat.not_lt]

/-- The four rows of R77 cover every pulse code, and the decoder takes the first that matches. -/
theorem decodePulseCode_first (w : BitVec 3) : firstHit pulseRows w = some (decodePulseCode w) := by
  revert w; decide

/-! ### Frames -/

theorem checksumOk_iff (f : Frame) : checksumOk f = true ↔ checksumOf f = f[7] := by simp [checksumOk]

/-- `VALIDATE` emits one verdict, clears the frame state, and recalibrates iff the checksum does not match (R160). -/
theorem validateFrame_eq (s : State) :
    validateFrame s = clearFrameState (emit (verdict s.cfg s.frame)
      (if checksumOk s.frame then s else recalibrate s)) := by
  unfold validateFrame verdict decodeReading
  split <;> rfl

/-- `BYTECLOSE` short of a whole frame (R130). -/
theorem closeByte_of_not_last {s : State} (h : lastByteOfFrame s = false) :
    closeByte s = { s with frame := s.frame.set s.byteCnt.val s.curByte s.byteCnt.isLt
                           byteCnt := s.byteCnt + 1, bitPos := 0, curByte := 0 } := by
  simp [closeByte, h]

/-- `BYTECLOSE` of the last byte (R132). -/
theorem closeByte_of_last {s : State} (h : lastByteOfFrame s = true) :
    closeByte s = validateFrame { s with frame := s.frame.set s.byteCnt.val s.curByte s.byteCnt.isLt
                                         byteCnt := s.byteCnt + 1, bitPos := 0, curByte := 0 } := by
  simp [closeByte, h]

/-- The guard fires or does nothing (R133). -/
theorem staleGuard_cases (s : State) :
    (s.totBits ≤ s.cfg.frameBitCount ∧ staleGuard s = s) ∨
      (s.cfg.frameBitCount < s.totBits ∧ staleGuard s = dropStale s) := by
  unfold staleGuard overBudget
  by_cases h : s.cfg.frameBitCount < s.totBits
  · right; simp [h]
  · left; simp [h]; omega

/-- `BITIN` short of a whole byte (R122). -/
theorem bitIn_of_not_full {s : State} (b : Bool) (h : lastBitOfByte s = false) :
    bitIn b s = staleGuard { s with curByte := shiftIn s.curByte b, totBits := s.totBits + 1, bitPos := s.bitPos + 1 } := by
  simp [bitIn, h]

/-- `BITIN` of the eighth bit of a byte that does not complete the frame (R122). -/
theorem bitIn_of_full {s : State} (b : Bool) (h : lastBitOfByte s = true) (hl : lastByteOfFrame s = false) :
    bitIn b s = staleGuard (closeByte { s with curByte := shiftIn s.curByte b, totBits := s.totBits + 1 }) := by
  simp [bitIn, h, hl]

/-- `BITIN` of the last bit of a frame: the guard is skipped (R122, 60_exceptions.md R199). -/
theorem bitIn_of_complete {s : State} (b : Bool) (h : lastBitOfByte s = true) (hl : lastByteOfFrame s = true) :
    bitIn b s = closeByte { s with curByte := shiftIn s.curByte b, totBits := s.totBits + 1 } := by
  simp [bitIn, h, hl]

/-- With an admitted configuration the last byte is the one at index 7. -/
theorem lastByteOfFrame_iff {s : State} (h : s.cfg.Admitted) : lastByteOfFrame s = true ↔ s.byteCnt.val = 7 := by
  simp [lastByteOfFrame, ((admitted_iff _).1 h).2.2.2]

theorem lastBitOfByte_iff (s : State) : lastBitOfByte s = true ↔ s.bitPos.val = 7 := by
  simp [lastBitOfByte]

theorem lastByteOfFrame_eq_false_iff {s : State} (h : s.cfg.Admitted) : lastByteOfFrame s = false ↔ s.byteCnt.val < 7 := by
  rw [← Bool.not_eq_true, lastByteOfFrame_iff h]; omega

theorem lastBitOfByte_eq_false_iff (s : State) : lastBitOfByte s = false ↔ s.bitPos.val < 7 := by
  rw [← Bool.not_eq_true, lastBitOfByte_iff]; omega

theorem Frame.get_set (f : Frame) (i j : Fin 8) (b : Byte) :
    (f.set i.val b i.isLt)[j] = if j = i then b else f[j] := by
  simp [Vector.getElem_set, Fin.ext_iff, eq_comm]

theorem Fin8.val_succ_of_lt {i : Fin 8} (h : i.val < 7) : (i + 1).val = i.val + 1 := by
  revert h; revert i; decide

/-- Everything a bit can do (R122, R130, R132, R133): go into the byte, close the byte, complete the frame, or trip the guard. -/
theorem bitIn_cases (s : State) (b : Bool) (ha : s.cfg.Admitted) :
    (s.bitPos.val < 7 ∧ s.totBits + 1 ≤ s.cfg.frameBitCount ∧
      bitIn b s = { s with curByte := shiftIn s.curByte b, totBits := s.totBits + 1, bitPos := s.bitPos + 1 }) ∨
    (s.bitPos.val = 7 ∧ s.byteCnt.val < 7 ∧ s.totBits + 1 ≤ s.cfg.frameBitCount ∧
      bitIn b s = { s with curByte := 0, totBits := s.totBits + 1, bitPos := 0, byteCnt := s.byteCnt + 1,
                           frame := s.frame.set s.byteCnt.val (shiftIn s.curByte b) s.byteCnt.isLt }) ∨
    (s.bitPos.val = 7 ∧ s.byteCnt.val = 7 ∧
      bitIn b s = validateFrame
        { s with curByte := 0, totBits := s.totBits + 1, bitPos := 0, byteCnt := 0,
                 frame := s.frame.set s.byteCnt.val (shiftIn s.curByte b) s.byteCnt.isLt }) ∨
    (¬ (s.bitPos.val = 7 ∧ s.byteCnt.val = 7) ∧ s.cfg.frameBitCount < s.totBits + 1 ∧
      ∃ f : Frame, (∀ i : Fin 8, i ≠ s.byteCnt → f[i] = s.frame[i]) ∧ (s.bitPos.val ≠ 7 → f = s.frame) ∧
        bitIn b s = dropStale { s with frame := f }) := by
  rcases Nat.lt_or_ge s.bitPos.val 7 with h1 | h1
  · rw [bitIn_of_not_full b ((lastBitOfByte_eq_false_iff s).2 h1)]
    obtain ⟨h2, h⟩ | ⟨h2, h⟩ := staleGuard_cases
      { s with curByte := shiftIn s.curByte b, totBits := s.totBits + 1, bitPos := s.bitPos + 1 }
    · left; rw [h]; exact ⟨h1, h2, rfl⟩
    · right; right; right; rw [h]; exact ⟨by omega, h2, s.frame, fun _ _ => rfl, fun _ => rfl, rfl⟩
  · have h1 : s.bitPos.val = 7 := by omega
    have h8 := (lastBitOfByte_iff s).2 h1
    rcases Nat.lt_or_ge s.byteCnt.val 7 with h3 | h3
    · have hl := (lastByteOfFrame_eq_false_iff ha).2 h3
      rw [bitIn_of_full b h8 hl,
        closeByte_of_not_last (s := { s with curByte := shiftIn s.curByte b, totBits := s.totBits + 1 }) hl]
      rcases staleGuard_cases
        { s with frame := s.frame.set s.byteCnt.val (shiftIn s.curByte b) s.byteCnt.isLt
                 byteCnt := s.byteCnt + 1, bitPos := 0, curByte := 0, totBits := s.totBits + 1 } with ⟨h2, h⟩ | ⟨h2, h⟩
      · right; left; refine ⟨h1, h3, h2, ?_⟩; dsimp only; rw [h]
      · right; right; right
        refine ⟨by omega, h2, s.frame.set s.byteCnt.val (shiftIn s.curByte b) s.byteCnt.isLt, ?_, fun h => absurd h1 h, ?_⟩
        · intro i hi; rw [Frame.get_set, if_neg hi]
        · dsimp only; rw [h]; rfl
    · have h3 : s.byteCnt.val = 7 := by omega
      have hl := (lastByteOfFrame_iff ha).2 h3
      right; right; left; refine ⟨h1, h3, ?_⟩
      rw [bitIn_of_complete b h8 hl,
        closeByte_of_last (s := { s with curByte := shiftIn s.curByte b, totBits := s.totBits + 1 }) hl]
      have hb : s.byteCnt + 1 = 0 := by rw [show s.byteCnt = 7 from Fin.ext h3]; rfl
      dsimp only; rw [hb]

/-- Everything the micro-operation of a falling edge can do (R127 to R129): nothing, or one bit of an open frame. -/
theorem pulseStep_cases (s : State) :
    ((s.active = false ∨ s.hctr ≤ s.cfg.minLowBit) ∧ pulseStep (decodePulseCode (pulseCode s)) s = s) ∨
    (s.active = true ∧ s.cfg.minLowBit < s.hctr ∧
      pulseStep (decodePulseCode (pulseCode s)) s = bitIn (decide (s.cfg.minHighBit < s.hctr)) s) := by
  rw [decodePulseCode_pulseCode]
  cases h1 : s.active
  · left; simp [pulseStep]
  · by_cases h2 : s.hctr ≤ s.cfg.minLowBit
    · left; simp [h2, pulseStep]
    · right
      by_cases h3 : s.hctr ≤ s.cfg.minHighBit
      · simp [h2, h3, pulseStep, decide_eq_false (Nat.not_lt.2 h3)]; omega
      · simp [h2, h3, pulseStep, decide_eq_true (Nat.not_le.1 h3)]; omega

/-! ### The end of a step -/

/-- The PRE2ACT test, then the common ending (R122). -/
theorem endRunStep_of_preamble {s : State} (h : s.preamble = true) : endRunStep true s = endStep (startFrame s) := by
  simp [endRunStep, h]

theorem endRunStep_of_no_preamble {s : State} (h : s.preamble = false) (d : Bool) : endRunStep d s = endStep s := by
  simp [endRunStep, h]

theorem endRunStep_of_no_reset (s : State) : endRunStep false s = endStep s := rfl

theorem resetRun_of_preamble {s : State} (h : s.preamble = true) :
    resetRun s = endStep (startFrame { s with hctr := 0 }) := by simp [resetRun, endRunStep, h]

theorem resetRun_of_no_preamble {s : State} (h : s.preamble = false) :
    resetRun s = endStep { s with hctr := 0 } := by simp [resetRun, endRunStep, h]

/-! ### Fetch and step -/

/-- Everything a step that answers a next state can be. -/
theorem step_cases {s t : State} (h : step s = .next t) : s.cfg.Admitted ∧
    ((s.stim = [] ∧ t = openStep s []) ∨
     (∃ p rest, s.stim = .cycle p :: rest ∧ p.rst = true ∧ t = resetBlock (openStep s rest)) ∨
     (∃ p rest, s.stim = .cycle p :: rest ∧ p.rst = false ∧ p.valid = false ∧ t = openStep s rest) ∨
     (∃ p rest i, s.stim = .cycle p :: rest ∧ p.rst = false ∧ p.valid = true ∧
        decodeClassWord (classWord (latch p.data (openStep s rest))) = .ok i ∧
        exec i (latch p.data (openStep s rest)) = .next t) ∨
     (∃ l hb rest, s.stim = .bytes l hb :: rest ∧ exec (.asm16 l hb) (openStep s rest) = .next t) ∨
     (∃ widths count rest, s.stim = .call widths count :: rest ∧
        exec (.pw2b widths count) (openStep s rest) = .next t)) := by
  unfold step fetch at h
  cases ha : s.cfg.admitted
  case false => rw [ha] at h; cases h
  refine ⟨ha, ?_⟩
  rw [ha, if_pos rfl] at h
  match hs : s.stim with
  | [] => rw [hs] at h; cases h; exact .inl ⟨rfl, rfl⟩
  | .bytes l hb :: rest => rw [hs] at h; exact .inr (.inr (.inr (.inr (.inl ⟨l, hb, rest, rfl, h⟩))))
  | .call widths count :: rest =>
    rw [hs] at h; exact .inr (.inr (.inr (.inr (.inr ⟨widths, count, rest, rfl, h⟩))))
  | .cycle p :: rest =>
    rw [hs] at h
    simp only [fetchCycle] at h
    cases hr : p.rst
    case true => simp only [hr, if_true] at h; cases h; exact .inr (.inl ⟨p, rest, rfl, hr, rfl⟩)
    case false =>
      cases hv : p.valid
      case false => simp [hr, hv] at h; exact .inr (.inr (.inl ⟨p, rest, rfl, hr, hv, h.symm⟩))
      case true =>
        simp only [hr, hv, if_true, Bool.false_eq_true, if_false, fetchSample] at h
        cases hd : decodeClassWord (classWord (latch p.data (openStep s rest))) with
        | ok i => rw [hd] at h; exact .inr (.inr (.inr (.inl ⟨p, rest, i, rfl, hr, hv, hd, h⟩)))
        | reject e => rw [hd] at h; cases h

/-- The step on a presented sample, once its class word is decoded. -/
theorem step_of_sample {s : State} {x : Sample} {rest : List Stim} {i : Instr} (ha : s.cfg.Admitted)
    (hs : s.stim = .cycle ⟨false, true, x⟩ :: rest)
    (hd : decodeClassWord (classWord (latch x (openStep s rest))) = .ok i) :
    step s = exec i (latch x (openStep s rest)) := by
  have hf : fetch s = fetchSample (latch x (openStep s rest)) := by simp [fetch, ha, hs, fetchCycle]
  simp [step, hf, fetchSample, hd]

end Sys2Proof.Machine
end

