-- ==== Sys2Proof/Laws/PerInstr.lean ====
section
/-! SUPPORT. Statements made per operation, one lemma per constructor. -/

namespace Sys2Proof.Laws.RoundTrip

/-- The code the encoder gives an operation is one that some state forms, and it decodes to that operation
(30_encoding.md R76 to R78, R80). -/
def Statement (i : Instr) : Prop := (encode i).reachable = true ∧ decode (encode i) = .ok i

theorem warm : Statement .warm := by unfold Statement; decide
theorem cal : Statement .cal := by unfold Statement; decide
theorem rise : Statement .rise := by unfold Statement; decide
theorem high : Statement .high := by unfold Statement; decide
theorem fall : Statement .fall := by unfold Statement; decide
theorem low : Statement .low := by unfold Statement; decide
theorem holdPrev : Statement .holdPrev := by unfold Statement; decide
theorem holdCur : Statement .holdCur := by unfold Statement; decide
theorem nobitInactive : Statement .nobitInactive := by unfold Statement; decide
theorem nobitShort : Statement .nobitShort := by unfold Statement; decide
theorem bit0 : Statement .bit0 := by unfold Statement; decide
theorem bit1 : Statement .bit1 := by unfold Statement; decide
theorem byteClose : Statement .byteClose := by unfold Statement; decide
theorem validate : Statement .validate := by unfold Statement; decide
theorem decode : Statement .decode := by unfold Statement; decide
theorem recal : Statement .recal := by unfold Statement; decide
theorem stale : Statement .stale := by unfold Statement; decide
theorem pre2act : Statement .pre2act := by unfold Statement; decide
theorem pw2b (widths : List Nat) (count : Nat) : Statement (.pw2b widths count) := ⟨rfl, rfl⟩
theorem asm16 (l h : Byte) : Statement (.asm16 l h) := ⟨rfl, rfl⟩

end Sys2Proof.Laws.RoundTrip
end

