-- ==== Sys2Proof/Laws/Run.lean ====
section
/-! SUPPORT. Runs of several steps, one step at a time. -/

namespace Sys2Proof.Machine

theorem run_zero (s : State) : Host.Core.run core 0 s = .next s := rfl

theorem run_succ {s t : State} (k : Nat) (h : step s = .next t) :
    Host.Core.run core (k + 1) s = Host.Core.run core k t := by
  have hc : core.step s = .next t := h
  simp only [Host.Core.run, hc]

/-- A run of `k` steps and then one of `m` is a run of `k + m`. -/
theorem run_add (k m : Nat) {s t : State} (h : Host.Core.run core k s = .next t) :
    Host.Core.run core (k + m) s = Host.Core.run core m t := by
  induction k generalizing s with
  | zero => cases h; rw [Nat.zero_add]
  | succ k ih =>
    cases hs : step s with
    | next u => rw [run_succ k hs] at h; rw [Nat.succ_add, run_succ _ hs, ih h]
    | fault r => exact nomatch r
    | refused r =>
      have hc : core.step s = .refused r := hs
      simp only [Host.Core.run, hc] at h
      cases h

end Sys2Proof.Machine
end

