-- ==== Sys2Proof/Tests/Slice0.lean ====
section
/-! SUPPORT. Small tests, their expected results taken from the spec (mostly 95_test_vectors.md, by vector name), and
for every obligation with hypotheses a state that meets them (`test_witness_<obligation>`). -/

namespace Sys2Proof.Tests

open Sys2Proof.Machine

/-! ### Helpers -/

/-- The configuration of program P5. -/
def p5 : Cfg := ⟨4, 5, 1, 3, 8, 64, 240, .low, 9⟩

/-- The default configuration of R7 with the example `VREF` of 95_test_vectors.md. -/
def stock : Cfg := ⟨100, 40, 3, 8, 8, 64, 240, .low, 9⟩

def hi : Sample := 1000#16
def lo : Sample := BitVec.ofInt 16 (-1000)

/-- `RUN`, `CENTER = 0`, the previous and the present sample as given. -/
def edge (c : Cfg) (prev cur : Sample) : State := { resetWith c [] with phase := .run, prev := prev, sample := cur }

/-- The same with a frame open: its bits so far and the width count of the pulse that ends. -/
def inFrame (c : Cfg) (frame : Frame) (byteCnt bitPos : Fin 8) (curByte : Byte) (hctr : Nat) : State :=
  { edge c hi lo with active := true, frame := frame, byteCnt := byteCnt, bitPos := bitPos, curByte := curByte,
                      totBits := 8 * byteCnt.val + bitPos.val, hctr := hctr }

/-- The valid frame of L1-4, and the same with the checksum the source prints (L1-5). -/
def good : Frame := #v[0x01, 0x02, 0x03, 0x04, 0x00, 0x64, 0x00, 0x6E]
def bad : Frame := #v[0x01, 0x02, 0x03, 0x04, 0x00, 0x64, 0x00, 0x6A]

/-- A field of the next state. -/
def after {α : Type} (f : State → α) (o : Host.Outcome State Fault Refusal) : Option α :=
  match o with
  | .next t => some (f t)
  | .fault _ => none
  | .refused _ => none

/-! ### Well-formedness: an ill-formed term for each check -/

theorem test_wf_defaults : stock.admitted = true ∧ p5.admitted = true := by decide
theorem test_wf_noWarmup : Cfg.admitted { stock with centerSamples := 0 } = false := by decide
theorem test_wf_thresholdsCross : Cfg.admitted { stock with minLowBit := 9 } = false := by decide
theorem test_wf_preambleShort : Cfg.admitted { stock with preambleCount := 7 } = false := by decide
theorem test_wf_frameBytes : Cfg.admitted { stock with frameByteCount := 9 } = false := by decide
theorem test_wf_lastAndRun : Code.reachable (.cw 0b110000#6) = false := by decide
theorem test_wf_warmupWithEdge : Code.reachable (.cw 0b001010#6) = false := by decide
theorem test_wf_prevHighAndLow : Code.reachable (.cw 0b011110#6) = false := by decide
theorem test_wf_curHighAndLow : Code.reachable (.cw 0b011011#6) = false := by decide
theorem test_wf_longNotShort : Code.reachable (.pw 0b101#3) = false := by decide
theorem test_wf_holdInLow : Instr.wf stock .holdPrev = false ∧ Instr.wf stock .holdCur = false := by decide
theorem test_wf_noZeros : Instr.wf { stock with minHighBit := 3 } .bit0 = false := by decide
theorem test_wf_tooManyBytes : Instr.wf stock (.pw2b [] 10) = false ∧ Instr.wf stock (.pw2b [] 9) = true := by decide

/-! ### Decode: words written out from 30_encoding.md R75 to R77, bits LAST RUN PGT PLT CGT CLT and ACT GL GH -/

theorem test_decode_warm : decode (.cw 0b000000#6) = .ok .warm := by decide
theorem test_decode_cal : decode (.cw 0b100000#6) = .ok .cal := by decide
theorem test_decode_rise : decode (.cw 0b010110#6) = .ok .rise := by decide
theorem test_decode_high : decode (.cw 0b011010#6) = .ok .high := by decide
theorem test_decode_fall : decode (.cw 0b011001#6) = .ok .fall := by decide
theorem test_decode_low : decode (.cw 0b010101#6) = .ok .low := by decide
theorem test_decode_holdPrev : decode (.cw 0b010010#6) = .ok .holdPrev := by decide
theorem test_decode_holdCur : decode (.cw 0b010100#6) = .ok .holdCur := by decide
theorem test_decode_nobitInactive : decode (.pw 0b011#3) = .ok .nobitInactive := by decide
theorem test_decode_nobitShort : decode (.pw 0b100#3) = .ok .nobitShort := by decide
theorem test_decode_bit0 : decode (.pw 0b110#3) = .ok .bit0 := by decide
theorem test_decode_bit1 : decode (.pw 0b111#3) = .ok .bit1 := by decide
theorem test_decode_selected : decode (.selected .byteFull) = .ok .byteClose ∧
    decode (.selected .frameFull) = .ok .validate ∧ decode (.selected .checksumMatch) = .ok .decode ∧
    decode (.selected .checksumMismatch) = .ok .recal ∧ decode (.selected .overBudget) = .ok .stale ∧
    decode (.selected .preambleEnds) = .ok .pre2act := by decide
theorem test_decode_pw2b : decode (.wl [9, 4] 8) = .ok (.pw2b [9, 4] 8) := by decide
/-- The first byte of the stream is the low one (R52): `18 FC` is -1000. -/
theorem test_decode_asm16 : decodeTableWord 16 0xFC18 = some (.asm16 0x18 0xFC) := by decide
theorem test_decode_rejects : decode (.cw 0b110000#6) = .reject .unreachableClassWord ∧
    decodeTableWord 8 0b1000000 = none ∧ decodeTableWord 24 0 = none := by decide
/-- The class words of P5's steps 13 and 19, and their pulse codes. -/
theorem test_classWord_fall : classWord (edge p5 hi lo) = 0x19#6 ∧
    pulseCode { edge p5 hi lo with hctr := 6 } = 0x3#3 ∧
    pulseCode { edge p5 hi lo with hctr := 4, active := true } = 0x7#3 ∧
    pulseCode { edge p5 hi lo with hctr := 2, active := true } = 0x6#3 ∧
    pulseCode { edge p5 hi lo with hctr := 1, active := true } = 0x4#3 := by decide

/-! ### One step each -/

/-- P5, step 1. -/
theorem test_warm : after (fun t => (t.wcnt, t.sum, t.prev.toInt, t.n, t.events))
    (step (resetWith p5 [present 10])) = some (1, 10, 10, 1, []) := by decide
/-- L2-3: the floor, not the truncated quotient. -/
theorem test_cal_floor : after (fun t => (t.center.toInt, t.phase, t.events))
    (exec .cal { resetWith stock [] with wcnt := 99, sum := 0, sample := BitVec.ofInt 16 (-1) }) =
      some (-1, .run, [.ready (BitVec.ofInt 16 (-1))]) := by decide
/-- L2-15: the sample of `CAL` is only stored in `PREV`. -/
theorem test_cal_positive : after (fun t => (t.center.toInt, t.prev.toInt, t.sum, t.wcnt))
    (exec .cal { resetWith stock [] with wcnt := 99, sum := 0, sample := 100 }) = some (1, 100, 0, 0) := by decide
/-- P5, step 14; L2-37: in mode strict the PRE2ACT test can come at a `RISE`. -/
theorem test_rise : after (fun t => (t.hctr, t.active)) (exec .rise { edge p5 lo hi with hctr := 3 }) = some (0, false) ∧
    after (fun t => (t.hctr, t.active, t.preamble))
      (exec .rise { edge stock 0 hi with hctr := 44, preamble := true }) = some (0, true, false) := by decide
/-- P5, steps 11 and 12: the sixth count exceeds 5. -/
theorem test_high : after (fun t => (t.hctr, t.preamble)) (exec .high { edge p5 hi hi with hctr := 4 }) = some (5, false) ∧
    after (fun t => (t.hctr, t.preamble)) (exec .high { edge p5 hi hi with hctr := 5 }) = some (6, true) := by decide
/-- P5, step 13: `FALL+NOBIT+PRE2ACT`. -/
theorem test_fall_preamble : after (fun t => (t.hctr, t.preamble, t.active, t.totBits))
    (exec .fall { edge p5 hi lo with hctr := 6, preamble := true }) = some (0, false, true, 0) := by decide
/-- L2-22 and L2-23: width count 8 is a 0, width count 9 is a 1. -/
theorem test_fall_thresholds :
    after (fun t => (t.curByte, t.bitPos)) (exec .fall (inFrame stock good 0 0 0 8)) = some (0x00, 1) ∧
    after (fun t => (t.curByte, t.bitPos)) (exec .fall (inFrame stock good 0 0 0 9)) = some (0x01, 1) := by decide
/-- P5, step 5. -/
theorem test_low : after (fun t => (t.hctr, t.prev.toInt, t.n)) (exec .low { edge p5 lo lo with n := 4 }) = some (0, -1000, 5) := by
  decide
/-- L2-36, mode strict: an equal sample leaves the count. -/
theorem test_hold : after (fun t => (t.hctr, t.prev.toInt))
    (step { edge { stock with centerEqMode := .strict } hi 0 with hctr := 5, stim := [present 0] }) = some (5, 0) ∧
    after (fun t => (t.hctr, t.prev.toInt))
      (step { edge { stock with centerEqMode := .strict } 0 0 with hctr := 5, stim := [present hi] }) = some (5, 1000) := by
  decide
/-- L2-30 and L2-20: a pulse before any preamble, and a width count of 3. -/
theorem test_nobit :
    after (fun t => (t.curByte, t.totBits, t.hctr)) (exec .fall { edge stock hi lo with hctr := 9 }) = some (0, 0, 0) ∧
    after (fun t => (t.curByte, t.totBits, t.hctr)) (exec .fall (inFrame stock good 0 0 0 3)) = some (0, 0, 0) := by decide
/-- P5, step 23: a 0 behind a 1. -/
theorem test_bit0 : after (fun t => (t.curByte, t.bitPos, t.totBits, t.hctr)) (exec .bit0 (inFrame p5 good 0 1 1 2)) =
    some (0x02, 2, 2, 2) := by decide
/-- P1, step 231: the eighth bit of byte `01` closes it. -/
theorem test_bit1_closes : after (fun t => (t.frame[0], t.byteCnt, t.bitPos, t.curByte, t.totBits))
    (exec .bit1 (inFrame stock #v[0, 0, 0, 0, 0, 0, 0, 0] 0 7 0 9)) = some (0x01, 1, 0, 0, 8) := by decide
/-- L2-35, `FRAMEBITCOUNT = 7`: the byte is closed first, then the guard fires. -/
theorem test_byteClose_then_stale : after (fun t => (t.frame[0], t.active, t.staleCount, t.events))
    (exec .bit1 (inFrame { stock with frameBitCount := 7 } #v[0, 0, 0, 0, 0, 0, 0, 0] 0 7 0 9)) =
      some (0x01, false, 1, [.stale]) := by decide
theorem test_byteClose : after (fun t => (t.frame[3], t.frame[4], t.byteCnt))
    (exec .byteClose { inFrame stock good 3 0 0x55 0 with bitPos := 7 }) = some (0x55, 0x00, 4) := by decide
/-- P1, step 851: the 64th bit; P2, step 846: the mismatch, which goes back to warm-up. -/
theorem test_frame_end :
    after (fun t => (t.events, t.phase, t.active, t.byteCnt)) (exec .fall (inFrame stock (good.set 7 0) 7 7 0x37 4)) =
      some ([.reading good 100 0 24000 (-15)], .run, false, 0) ∧
    after (fun t => (t.events, t.phase, t.active, t.center)) (exec .fall (inFrame stock (bad.set 7 0) 7 7 0x35 4)) =
      some ([.mismatch bad 0x6E], .warmup, false, 0) := by decide
/-- L2-39: a preamble-long pulse as the 64th bit; `VALIDATE` clears `PREAMBLE`, so no new frame starts. -/
theorem test_frame_end_preamble : after (fun t => (t.events, t.phase, t.active, t.preamble))
    (exec .fall { inFrame stock (good.set 7 0) 7 7 0x37 44 with preamble := true }) =
      some ([.mismatch (good.set 7 0x6F) 0x6E], .warmup, false, false) := by decide
/-- L2-58, L2-59 and L2-61. -/
theorem test_validate :
    verdict stock #v[0xFF, 0xFF, 0xFF, 0xFF, 0xFF, 0xFF, 0xFF, 0xF9] =
      .reading #v[0xFF, 0xFF, 0xFF, 0xFF, 0xFF, 0xFF, 0xFF, 0xF9] 65535 (-1) 15728400 (-16) ∧
    verdict stock #v[0xFF, 0xFF, 0xFF, 0xFF, 0xFF, 0xFF, 0xFF, 0xFF] =
      .mismatch #v[0xFF, 0xFF, 0xFF, 0xFF, 0xFF, 0xFF, 0xFF, 0xFF] 0xF9 ∧
    verdict stock #v[0, 0, 0, 0, 0, 0, 0, 1] = .mismatch #v[0, 0, 0, 0, 0, 0, 0, 1] 0 := by decide
/-- L2-62. -/
theorem test_validate_exec : after (fun t => (t.events, t.phase, t.active))
    (exec .validate (inFrame stock #v[0x12, 0x34, 0x56, 0x78, 0x02, 0x9A, 0x00, 0xB0] 0 0 0 0)) =
      some ([.reading #v[0x12, 0x34, 0x56, 0x78, 0x02, 0x9A, 0x00, 0xB0] 666 0 159840 (-15)], .run, false) := by decide
/-- L2-55 and L2-56: the largest and the smallest exponent. -/
theorem test_decode_exponents :
    after (fun t => t.events) (exec .decode (inFrame stock #v[0, 0, 0, 0, 0xFF, 0xFF, 0x7F, 0x7D] 0 0 0 0)) =
      some [.reading #v[0, 0, 0, 0, 0xFF, 0xFF, 0x7F, 0x7D] 65535 127 15728400 112] ∧
    after (fun t => t.events) (exec .decode (inFrame stock #v[0, 0, 0, 0, 0xFF, 0xFF, 0x80, 0x7E] 0 0 0 0)) =
      some [.reading #v[0, 0, 0, 0, 0xFF, 0xFF, 0x80, 0x7E] 65535 (-128) 15728400 (-143)] := by decide
/-- R196: `CENTER` keeps its old value. -/
theorem test_recal : after (fun t => (t.phase, t.wcnt, t.sum, t.center, t.events))
    (exec .recal { edge stock hi lo with center := 7 }) = some (.warmup, 0, 0, 7, []) := by decide
/-- L2-34: the eleventh bit against a budget of 10. -/
theorem test_stale : after (fun t => (t.active, t.staleCount, t.phase, t.frame[0], t.events))
    (exec .fall (inFrame { stock with frameBitCount := 10 } #v[0xFF, 0, 0, 0, 0, 0, 0, 0] 1 2 3 9)) =
      some (false, 1, .run, 0xFF, [.stale]) := by decide
/-- L2-26: the bit is shifted in, then the frame restarts empty. -/
theorem test_pre2act : after (fun t => (t.active, t.preamble, t.curByte, t.bitPos, t.totBits))
    (exec .fall { inFrame stock good 0 0 0 41 with preamble := true }) = some (true, false, 0, 0, 0) := by decide
/-- L2-70 and L2-77. -/
theorem test_pw2b : pw2b stock [3, 8, 9, 4, 3, 8, 9, 4, 3, 8, 9, 4, 3, 8, 9, 4] 8 = [0x49] ∧
    after State.result (exec (.pw2b [44, 4, 4, 4, 4, 4, 4, 4] 8) (edge stock 0 0)) = some (some [0x80]) := by decide
/-- L2-73 and L2-76. -/
theorem test_pw2b_stops : pw2b stock [4, 4, 4, 4, 4, 4, 4, 9, 2, 9, 9, 9, 9, 9, 9, 9, 9, 4] 1 = [0x01] ∧
    pw2b stock [9, 9, 9, 9, 9, 9, 9, 9] 0 = [] := by decide
/-- L2-18 and L2-19. -/
theorem test_asm16 : (samplesOfBytes [0x00, 0x80, 0xFF, 0x7F, 0xFF, 0xFF, 0x34, 0x12]).map BitVec.toInt =
      [-32768, 32767, -1, 4660] ∧
    (samplesOfBytes [0xE8, 0x03, 0x18]).map BitVec.toInt = [1000] := by decide
theorem test_asm16_exec : after (fun t => (t.stim, t.n)) (step { edge stock 0 0 with stim := [.bytes 0x18 0xFC] }) =
    some ([present lo], 0) := by decide
/-- R221: a sample presented with `rst` is not consumed. -/
theorem test_rst : after (fun t => (t.phase, t.n, t.active, t.prev.toInt, t.cfg))
    (step { inFrame stock good 3 2 1 9 with n := 9, stim := [.cycle ⟨true, true, hi⟩] }) =
      some (.warmup, 0, false, 0, stock) := by decide
/-- R38: no sample, no change; the strobes go. -/
theorem test_notValid : after (fun t => (t.hctr, t.n, t.events))
    (step { edge stock hi lo with hctr := 3, n := 5, events := [.stale], stim := [.cycle ⟨false, false, lo⟩] }) =
      some (3, 5, []) := by decide
/-- D22: a configuration that is not admitted is refused. -/
theorem test_refused : after (fun t => t.n) (step (resetWith { stock with frameByteCount := 9 } [present 0])) = none := by decide
/-- The ports after L2-50's frame (R38, R165): `w_exp` is -15 in nine bits. -/
theorem test_ports : (portsOf { edge stock 0 0 with events := [readingOf stock good] }).frame = some 0x010203040064006E#64 ∧
    (portsOf { edge stock 0 0 with events := [readingOf stock good] }).wExp = some (BitVec.ofInt 9 (-15)) := by decide

/-! ### A table word placed where the next step takes it -/

theorem test_fetch_warm : after (fun t => (t.wcnt, t.n)) (step (State.reset.withFetchWord 8 0x00)) = some (1, 1) := by decide
theorem test_fetch_cal : after (fun t => t.phase) (step (State.reset.withFetchWord 8 0x20)) = some .run := by decide
theorem test_fetch_high : after (fun t => (t.hctr, t.phase)) (step (State.reset.withFetchWord 8 0x1A)) = some (1, .run) := by
  decide
theorem test_fetch_bit1 : after (fun t => (t.curByte, t.totBits)) (step (State.reset.withFetchWord 8 0x7)) = some (1, 1) := by
  decide
theorem test_fetch_asm16 : after (fun t => t.stim) (step (State.reset.withFetchWord 16 0x03E8)) = some [present 1000] := by decide
/-- A whole frame as its 64-bit value: L1-5's, reported as a mismatch. -/
theorem test_fetch_validate : after (fun t => t.events) (step (State.reset.withFetchWord 64 0x010203040064006A)) =
    some [.mismatch bad 0x6E] := by decide

/-! ### Every hypothesis can be met: a witness for each obligation that has one, and for each clause -/

/-- A frame in assembly meets the invariants of R40. -/
theorem inFrame_inv : StepInv (inFrame stock good 7 7 0x37 44) := by constructor <;> decide
theorem openFrame_inv : StepInv (inFrame stock good 0 3 0x05 9) := by constructor <;> decide

/-- Mode strict, `CENTER = 0`: every place of the previous and the present sample. -/
def strict : Cfg := { stock with centerEqMode := .strict }

/-- A bit budget of 7. -/
def seven : Cfg := { stock with frameBitCount := 7 }

theorem test_witness_ClassWordSelectsTheOperation :
    (resetWith stock []).phase = .warmup ∧ (∀ c p x, (edge c p x).phase = .run) ∧
    (LowAt (edge stock 0 1) 0 ∧ HighAt (edge stock 0 1) 1) ∧ (HighAt (edge stock 1 1) 1) ∧
    (HighAt (edge stock 1 0) 1 ∧ LowAt (edge stock 1 0) 0) ∧ (LowAt (edge stock lo 0) lo ∧ LowAt (edge stock lo 0) 0) ∧
    (¬ HighAt (edge strict 0 0) 0 ∧ ¬ LowAt (edge strict 0 0) 0) ∧
    ((HighAt (edge strict 1 0) 1 ∨ LowAt (edge strict 1 0) 1) ∧ ¬ HighAt (edge strict 1 0) 0 ∧ ¬ LowAt (edge strict 1 0) 0) :=
  ⟨rfl, fun _ _ _ => rfl, by decide⟩

theorem test_witness_ClassWordMatchesOneMnemonic : (resetWith stock []).cfg.centerEqMode = .low := by decide

theorem test_witness_ByteStreamGivesSamples : 2 * 0 + 1 < ([0xFF, 0x7F, 0x00, 0x80, 0x18] : List Byte).length ∧
    2 * 1 + 1 < ([0xFF, 0x7F, 0x00, 0x80, 0x18] : List Byte).length ∧
    ([0xFF, 0x7F, 0x00, 0x80, 0x18] : List Byte)[1].toNat < 128 ∧
    ¬ ([0xFF, 0x7F, 0x00, 0x80, 0x18] : List Byte)[3].toNat < 128 := by decide

theorem test_witness_StepRunsTheDecodedOperation : (resetWith stock [present hi]).cfg.Admitted ∧
    (resetWith stock [present hi]).stim = .cycle ⟨false, true, hi⟩ :: [] ∧
    decodeClassWord (classWord { resetWith stock [present hi] with events := [], result := none, stim := [], sample := hi }) =
      .ok .warm := by decide

theorem test_witness_StepRunsTheUnitsCalled : (resetWith stock []).cfg.Admitted ∧
    (resetWith stock [.bytes 1 2]).stim = .bytes 1 2 :: [] ∧ (resetWith stock [.call [9] 8]).stim = .call [9] 8 :: [] := by decide

theorem test_witness_CycleWithoutSampleHoldsState : (resetWith stock []).cfg.Admitted ∧ (resetWith stock []).stim = [] ∧
    (resetWith stock [.cycle ⟨false, false, hi⟩]).stim = .cycle ⟨false, false, hi⟩ :: [] := by decide

theorem test_witness_ResetReplacesTheState : (resetWith stock []).cfg.Admitted ∧
    (resetWith stock [.cycle ⟨true, true, hi⟩]).stim = .cycle ⟨true, true, hi⟩ :: [] := by decide

theorem test_witness_OtherConfigurationsAreRefused : ¬ (resetWith { stock with centerSamples := 0 } []).cfg.Admitted := by decide

theorem test_witness_EveryOperationAndStepCompletes : (resetWith p5 []).cfg.Admitted := by decide

theorem test_witness_EverySampleStepEndsAlike : (inFrame stock good 7 7 0x37 4).cfg.Admitted ∧
    ({ inFrame stock good 7 7 0x37 4 with stim := [present lo] } : State).stim = .cycle ⟨false, true, lo⟩ :: [] := by decide

theorem test_witness_ByteFrontEndPresentsItsSample : (resetWith stock [.bytes 0xE8 0x03]).cfg.Admitted ∧
    (resetWith stock [.bytes 0xE8 0x03]).stim = .bytes 0xE8 0x03 :: [] ∧
    ∃ t, step (resetWith stock [.bytes 0xE8 0x03]) = .next t := ⟨by decide, rfl, _, rfl⟩

theorem test_witness_WarmSumsTheSample : (resetWith stock []).cfg.Admitted := by decide

/-- The largest and the smallest sum of 99 samples. -/
theorem test_witness_CalSetsCenterToTheFloor :
    ∀ sum ∈ [(3243933 : Int), -3244032], ∃ s : State, s = { resetWith stock [] with wcnt := 99, sum := sum } ∧
      s.cfg.Admitted ∧ s.wcnt + 1 = s.cfg.centerSamples ∧ -32768 * (s.wcnt : Int) ≤ s.sum ∧ s.sum ≤ 32767 * (s.wcnt : Int) := by
  intro sum h
  refine ⟨_, rfl, rfl, rfl, ?_⟩
  rcases List.mem_pair.1 h with rfl | rfl <;> decide

theorem test_witness_WarmupAveragesExactlyItsSamples : p5.Admitted ∧
    WarmStart (resetWith p5 ([10, 20, 30, 40].map present)) ∧ ([10, 20, 30, 40] : List Sample).length = p5.centerSamples ∧
    (resetWith p5 ([10, 20, 30, 40].map present)).stim = [10, 20, 30, 40].map present ++ [] ∧ 0 < 1 ∧ 3 < 4 := by decide

theorem test_witness_OnlyCalWritesCenter : ∃ t, step { resetWith p5 [present 40] with wcnt := 3 } = .next t ∧
    t.center ≠ (resetWith p5 [present 40]).center := ⟨_, rfl, by decide⟩

theorem test_witness_CenterIsUnreadInWarmup : ({ resetWith p5 [present 40] with wcnt := 3 } : State).phase = .warmup ∧
    ∃ t, step { resetWith p5 [present 40] with wcnt := 3 } = .next t ∧ t.phase = .run := ⟨rfl, _, rfl, rfl⟩

theorem test_witness_RiseAndLowResetTheRun : (edge stock lo hi).cfg.Admitted ∧ (edge stock lo hi).preamble = false ∧
    ({ edge stock 0 hi with preamble := true } : State).preamble = true := by decide

theorem test_witness_HighCountsAndMarksThePreamble : stock.Admitted ∧
    stock.preambleCount < ({ edge stock hi hi with hctr := 40 } : State).hctr + 1 ∧
    ¬ stock.preambleCount < ({ edge stock hi hi with hctr := 39 } : State).hctr + 1 := by decide

theorem test_witness_HoldOnlyEndsTheStep : (edge strict 0 hi).cfg.Admitted := by decide

/-- The width counts at which the choice of `FALL` changes, with a preamble pending and without. -/
theorem test_witness_FallDecidesThenResets : stock.Admitted ∧ (edge stock hi lo).active = false ∧
    (inFrame stock good 0 0 0 3).active = true ∧ 3 ≤ stock.minLowBit ∧ 4 ≤ stock.minHighBit ∧ 8 ≤ stock.minHighBit ∧
    ¬ 9 ≤ stock.minHighBit ∧ (inFrame stock good 0 0 0 9).preamble = false ∧
    ({ inFrame stock good 0 0 0 44 with preamble := true } : State).preamble = true := by decide

theorem test_witness_LowModeStartsFramesOnlyAtFall : ∃ s : State,
    s = { edge stock hi hi with hctr := 44, preamble := true, stim := [present lo] } ∧ s.cfg.centerEqMode = .low ∧
    StepInv s ∧ LowModeInv s ∧ s.active = false ∧ ∃ t, step s = .next t ∧ t.active = true :=
  ⟨_, rfl, rfl, by constructor <;> decide, And.intro (by decide) (by decide), rfl, _, rfl, rfl⟩

/-- L2-28: a run of 42 samples, whose width count 41 is the first that exceeds 40. -/
theorem test_witness_WidthCountIsRunLengthMinusOne : ∀ prev ∈ [lo, hi], ∃ s : State,
    s = { edge stock prev lo with stim := (List.replicate 42 hi).map present ++ [] } ∧ s.cfg.Admitted ∧ s.phase = .run ∧
    s.preamble = false ∧ List.replicate 42 hi ≠ [] ∧ (∀ x ∈ List.replicate 42 hi, HighAt s x) ∧
    s.stim = (List.replicate 42 hi).map present ++ [] ∧ (LowAt s s.prev ∨ HighAt s s.prev) := by
  intro prev h
  refine ⟨_, rfl, rfl, rfl, rfl, by simp, fun x hx => by rw [List.eq_of_mem_replicate hx]; exact (by decide : HighAt (edge stock lo lo) hi), rfl, ?_⟩
  rcases List.mem_pair.1 h with rfl | rfl <;> decide

theorem test_witness_NobitChangesNothing : (edge stock hi lo).cfg.Admitted := by decide

/-- Each clause: within the byte, over the budget, the last bit of the frame, of a byte, of a byte over the budget. -/
theorem test_witness_BitsShiftInMostSignificantFirst : stock.Admitted ∧ seven.Admitted ∧
    ((inFrame stock good 7 6 0 9).bitPos.val < 7 ∧ (inFrame stock good 7 6 0 9).totBits + 1 ≤ stock.frameBitCount) ∧
    ((inFrame seven good 1 0 0 9).bitPos.val < 7 ∧ seven.frameBitCount < (inFrame seven good 1 0 0 9).totBits + 1) ∧
    ((inFrame stock good 7 7 0 9).bitPos.val = 7 ∧ (inFrame stock good 7 7 0 9).byteCnt.val = 7) ∧
    ((inFrame stock good 6 7 0 9).bitPos.val = 7 ∧ (inFrame stock good 6 7 0 9).byteCnt.val < 7 ∧
      (inFrame stock good 6 7 0 9).totBits + 1 ≤ stock.frameBitCount) ∧
    ((inFrame seven good 0 7 0 9).bitPos.val = 7 ∧ (inFrame seven good 0 7 0 9).byteCnt.val < 7 ∧
      seven.frameBitCount < (inFrame seven good 0 7 0 9).totBits + 1) := by
  decide

theorem test_witness_ByteCloseStoresOneByte : stock.Admitted ∧ (inFrame stock good 6 7 0 9).byteCnt.val < 7 ∧
    (inFrame stock good 7 7 0 9).byteCnt.val = 7 := by decide

theorem test_witness_StaleDiscardsAndCounts : (inFrame stock good 7 7 0 9).cfg.Admitted := by decide

theorem test_witness_PreambleEndStartsAnEmptyFrame : ({ edge stock hi lo with preamble := true } : State).cfg.Admitted := by decide

/-- The three ends of a preamble-long pulse inside a frame: frame completed, guard tripped, frame restarted. -/
theorem test_witness_LongPulseRestartsTheFrame :
    StepInv { inFrame stock good 7 7 0x37 44 with preamble := true } ∧
    StepInv { inFrame seven good 1 2 1 44 with preamble := true } ∧
    StepInv { inFrame stock good 7 6 0x37 44 with preamble := true } ∧
    seven.frameBitCount < (inFrame seven good 1 2 1 44).totBits + 1 ∧
    (inFrame stock good 7 6 0x37 44).totBits + 1 ≤ stock.frameBitCount ∧ (inFrame stock good 7 6 0x37 44).active = true :=
  ⟨by constructor <;> decide, by constructor <;> decide, by constructor <;> decide, by decide, by decide, rfl⟩

theorem test_witness_ValidateReportsEachFrameOnce : (inFrame stock good 0 0 0 0).cfg.Admitted ∧
    byteSum good % 256 = good[7].toNat ∧ byteSum bad % 256 ≠ bad[7].toNat := by decide

theorem test_witness_DecodeReadsTheFrameFields : (inFrame stock good 0 0 0 0).cfg.Admitted ∧
    (good.set 6 0x7F)[6].toNat ≤ 127 ∧ 127 < (good.set 6 0x80)[6].toNat := by decide

/-- The state of P1's last step: with the default `CFG` and `VREF = 240` it emits a `READING`. -/
theorem test_witness_ReadingPairIsTheExactWatts : stock.Admitted ∧ stock.vref < 2 ^ 37 ∧
    (∃ t, step { inFrame stock (good.set 7 0) 7 7 0x37 4 with stim := [present lo] } = .next t ∧
      .reading good 100 0 24000 (-15) ∈ t.events) ∧ -128 ≤ (-128 : Int) ∧ (127 : Int) ≤ 127 :=
  ⟨by decide, by decide, ⟨_, rfl, by decide⟩, by decide, by decide⟩

/-- R167: 240 V, `00 64 FF` is 0.3662109375 W, and `01 00 0F` is 61440 W. -/
theorem test_watts : pairValue (240 * 100) (-1 - 15) = 0.3662109375 ∧ watts 240 256 15 = 61440 := by
  constructor <;> norm_num [pairValue, watts, divisor, zpow_neg]

/-- R73 written out: the high byte of the word is `FRAME[0]`, the low one `FRAME[7]`. -/
theorem test_frameWord : frameWord good = 0x010203040064006E#64 ∧ LaidOut good 0x010203040064006E#64 := by decide

theorem test_witness_RecalReturnsToWarmup : (edge stock hi lo).cfg.Admitted := by decide

theorem test_witness_Pw2bPacksTheBitsOfItsWidths : (edge stock hi lo).cfg.Admitted := by decide

/-- L1-3 and R181, with a width of exactly `MINLOWBIT` inserted. -/
theorem test_witness_Pw2bInvertsTheEncoding : stock.minLowBit < stock.minHighBit ∧ ([0x6E] : List Byte).length ≤ 8 ∧
    (([4, 9, 9, 3, 4, 9, 9, 9, 4] : List Nat).filter fun w => decide (stock.minLowBit < w)) = widthsOfBytes stock [0x6E] := by
  decide

theorem test_witness_Asm16MakesOneSample : (edge stock hi lo).cfg.Admitted ∧ (0x7F#8).toNat < 128 ∧ ¬ (0x80#8).toNat < 128 := by
  decide

/-- A frame with three bits, and one whose next bit is its last. -/
theorem test_witness_DemodulatorIsPw2bOneWidthAtATime :
    (StepInv (inFrame stock good 0 3 0x05 9) ∧ Tracks (inFrame stock good 0 3 0x05 9) [9, 4, 2, 12]) ∧
    (StepInv (inFrame stock (Vector.replicate 8 0xFF) 7 7 0x7F 9) ∧
      Tracks (inFrame stock (Vector.replicate 8 0xFF) 7 7 0x7F 9) (List.replicate 63 9)) ∧ 63 ≤ stock.frameBitCount ∧
    ∀ f k p b h, (inFrame stock f k p b h).active = true ∧ (inFrame stock f k p b h).preamble = false :=
  ⟨⟨openFrame_inv, by unfold Tracks; decide⟩, ⟨by constructor <;> decide, by unfold Tracks; decide⟩, by decide,
    fun _ _ _ _ _ => ⟨rfl, rfl⟩⟩

theorem test_witness_OtherEdgesKeepTheFrame : (inFrame stock good 0 3 0x05 0).cfg.Admitted ∧
    (inFrame stock good 0 3 0x05 0).preamble = false ∧
    ({ edge stock 0 hi with preamble := true, hctr := 44 } : State).preamble = true ∧
    Tracks (inFrame stock good 0 3 0x05 0) [9, 4, 9] := ⟨by decide, rfl, rfl, by unfold Tracks; decide⟩

theorem test_witness_ResetMeetsInvariants : p5.Admitted := by decide

theorem test_witness_StepKeepsInvariants : StepInv { inFrame stock good 7 7 0x37 44 with stim := [present lo] } ∧
    ∃ t, step { inFrame stock good 7 7 0x37 44 with stim := [present lo] } = .next t :=
  ⟨by constructor <;> decide, _, rfl⟩

theorem test_witness_RunsFromResetKeepInvariants : stock.Admitted := by decide

theorem test_witness_ConfigurationIsNeverWritten : ∃ t u, step (resetWith stock [present hi]) = .next t ∧
    exec .fall (inFrame stock good 7 7 0x37 9) = .next u := ⟨_, _, rfl, rfl⟩

theorem test_witness_StepEmitsAtMostOneEvent :
    ∃ t, step { inFrame stock (bad.set 7 0) 7 7 0x35 4 with stim := [present lo] } = .next t ∧ t.events ≠ [] :=
  ⟨_, rfl, by decide⟩

/-- Both changes of phase. -/
theorem test_witness_PhaseChangesWithItsEvents :
    (∃ t, step { resetWith p5 [present 40] with wcnt := 3 } = .next t ∧ t.phase = .run) ∧
    (∃ t, step { inFrame stock (bad.set 7 0) 7 7 0x35 4 with stim := [present lo] } = .next t ∧ t.phase = .warmup) ∧
    ∀ v x rest, [present lo] ≠ .cycle ⟨true, v, x⟩ :: rest :=
  ⟨⟨_, rfl, rfl⟩, ⟨_, rfl, by decide⟩, fun _ _ _ h => by simp [present] at h⟩

theorem test_witness_StaleCountCountsStaleEvents :
    (∃ t, step { inFrame { stock with frameBitCount := 10 } good 1 2 3 9 with stim := [present lo] } = .next t ∧
      .stale ∈ t.events) ∧
    ∀ v x rest, [present lo] ≠ .cycle ⟨true, v, x⟩ :: rest :=
  ⟨⟨_, rfl, by decide⟩, fun _ _ _ h => by simp [present] at h⟩

/-- The smallest budget, 63, at the 63rd bit (L2-35). -/
theorem test_witness_StaleIsUnreachableWithTheDefaultBudget : ∃ s : State,
    s = { inFrame { stock with frameBitCount := 63 } good 7 6 0x37 9 with stim := [present lo] } ∧ StepInv s ∧
    63 ≤ s.cfg.frameBitCount ∧ ∃ t, step s = .next t :=
  ⟨_, rfl, by constructor <;> decide, by decide, _, rfl⟩

theorem test_witness_OnlyTheEighthBitWritesTheFrame :
    (∃ t, step { inFrame stock (good.set 7 0) 7 7 0x37 4 with stim := [present lo] } = .next t ∧
      t.frame ≠ (inFrame stock (good.set 7 0) 7 7 0x37 4).frame) ∧
    ∀ v x rest, [present lo] ≠ .cycle ⟨true, v, x⟩ :: rest :=
  ⟨⟨_, rfl, by decide⟩, fun _ _ _ h => by simp [present] at h⟩

/-- Two frames that agree below `BYTECNT = 2` and nowhere else. -/
theorem test_witness_UnwrittenFrameBytesAreUnobservable :
    SameButStaleBytes { inFrame stock good 2 3 5 9 with stim := [present lo] }
      { inFrame stock #v[1, 2, 9, 9, 9, 9, 9, 9] 2 3 5 9 with stim := [present lo] } ∧
    ∃ t, step { inFrame stock good 2 3 5 9 with stim := [present lo] } = .next t :=
  ⟨And.intro rfl (by decide), _, rfl⟩

/-- The lowest ceiling, and a count above it. -/
theorem test_witness_SaturatingCounterIsIndistinguishable : stock.preambleCount + 1 ≤ 41 ∧
    ∃ t, step { edge stock hi hi with hctr := 60, stim := [present hi] } = .next t := ⟨by decide, _, rfl⟩

theorem test_witness_ModesAgreeOffCenter :
    (({ edge stock lo lo with stim := [present hi] } : State).prev ≠ (edge stock lo lo).center ∧
      ∀ v x rest, [present hi] = .cycle ⟨false, v, x⟩ :: rest → x ≠ (edge stock lo lo).center) ∧
    ∃ t, step (withMode .low { edge stock lo lo with stim := [present hi] }) = .next t :=
  ⟨⟨by decide, fun v x rest h => by cases h; decide⟩, _, rfl⟩

/-- The shortest run, none after the warm-up, and a longer one. -/
theorem test_witness_ConstantStreamNeverEmitsAFrame : p5.Admitted ∧ (∀ stim, WarmStart (resetWith p5 stim)) ∧
    (resetWith p5 (List.replicate 4 (present 7))).stim = List.replicate (p5.centerSamples + 0) (present 7) ++ [] ∧
    (resetWith p5 (List.replicate 7 (present 7))).stim = List.replicate (p5.centerSamples + 3) (present 7) ++ [] :=
  ⟨rfl, fun _ => ⟨rfl, rfl, rfl⟩, rfl, rfl⟩

theorem test_witness_PortsCarryTheEvent : ∀ es ∈ [[], [.ready 5], [.stale], [readingOf stock good],
      [.mismatch bad (checksumOf bad)]], ∃ s : State, s.cfg = stock ∧ s.events = es ∧
        (es ∈ [[], [.ready 5], [.stale]] → (portsOf s).evReading = false ∧ (portsOf s).evMismatch = false) := by
  intro es _
  refine ⟨{ edge stock 0 0 with events := es }, rfl, rfl, ?_⟩
  simp only [List.mem_cons, List.not_mem_nil, or_false]
  rintro (rfl | rfl | rfl) <;> decide

end Sys2Proof.Tests
end

section
/-! SUPPORT. Configurations that are not admitted (00_scope.md R7, decision D22): every meaning answers through `answer`,
and the fetch makes the same test before it looks at the stimulus. -/

namespace Sys2Proof.Machine

theorem answer_of_not_admitted {s : State} (h : ¬ s.cfg.Admitted) (t : State) :
    answer s t = .refused .configNotAdmitted := if_neg h

/-- Every meaning gives its one result to `answer`, so admission of the configuration alone decides whether it answers. -/
theorem exec_eq_answer (i : Instr) (s : State) : ∃ t, exec i s = answer s t := by
  cases i <;> exact ⟨_, rfl⟩

theorem exec_of_not_admitted {s : State} (h : ¬ s.cfg.Admitted) (i : Instr) :
    exec i s = .refused .configNotAdmitted := by
  obtain ⟨t, ht⟩ := exec_eq_answer i s
  rw [ht, answer_of_not_admitted h]

theorem fetch_of_not_admitted {s : State} (h : ¬ s.cfg.Admitted) : fetch s = .refuse .configNotAdmitted := if_neg h

theorem step_of_not_admitted {s : State} (h : ¬ s.cfg.Admitted) : step s = .refused .configNotAdmitted := by
  simp only [step, fetch_of_not_admitted h]

/-- Settles O12: the fetch refuses before the step runs anything, and each operation refuses through `answer`. -/
theorem otherConfigurationsAreRefused : Obligations.OtherConfigurationsAreRefused :=
  fun _ h => ⟨step_of_not_admitted h, exec_of_not_admitted h⟩

end Sys2Proof.Machine
end

section
/-! SUPPORT. The operation a class word selects, with the comparisons that select it (30_encoding.md R75, R76;
41_pulse_demodulator.md R120). -/

namespace Sys2Proof.Machine

theorem isHigh_iff (s : State) (v : Sample) : isHigh s v = true ↔ HighAt s v := by simp [isHigh]

theorem isLow_iff (s : State) (v : Sample) : isLow s v = true ↔ LowAt s v := by
  unfold isLow LowAt
  cases s.cfg.centerEqMode <;> simp [Int.le_iff_lt_or_eq]

theorem not_isHigh_and_isLow (s : State) (v : Sample) : (isHigh s v && isLow s v) = false := by
  rw [← Bool.not_eq_true, Bool.and_eq_true, isHigh_iff, isLow_iff]
  omega

/-- The operations a presented sample can select, each under the comparisons that select it. -/
inductive Selects (s : State) : Instr → Prop
  | warm : s.phase = .warmup → s.wcnt + 1 ≠ s.cfg.centerSamples → Selects s .warm
  | cal : s.phase = .warmup → s.wcnt + 1 = s.cfg.centerSamples → Selects s .cal
  | rise : s.phase = .run → LowAt s s.prev → HighAt s s.sample → Selects s .rise
  | high : s.phase = .run → HighAt s s.prev → HighAt s s.sample → Selects s .high
  | fall : s.phase = .run → HighAt s s.prev → LowAt s s.sample → Selects s .fall
  | low : s.phase = .run → LowAt s s.prev → LowAt s s.sample → Selects s .low
  | holdPrev : s.phase = .run → ¬ HighAt s s.prev → ¬ LowAt s s.prev → Selects s .holdPrev
  | holdCur : s.phase = .run → HighAt s s.prev ∨ LowAt s s.prev → ¬ HighAt s s.sample → ¬ LowAt s s.sample →
      Selects s .holdCur

/-- The rows of R76 for the four comparison bits of a class word formed in `RUN`. -/
def edgeOf (pgt plt cgt clt : Bool) : Instr :=
  if !pgt && !plt then .holdPrev
  else if !cgt && !clt then .holdCur
  else if pgt then (if cgt then .high else .fall)
  else if cgt then .rise else .low

theorem decodeClassWord_warmup (last : Bool) :
    decodeClassWord (BitVec.ofBool last ++ BitVec.ofBool false ++ BitVec.ofBool false ++ BitVec.ofBool false ++
      BitVec.ofBool false ++ BitVec.ofBool false) = .ok (if last then .cal else .warm) := by
  revert last; decide

theorem decodeClassWord_run (pgt plt cgt clt : Bool) (hp : (pgt && plt) = false) (hc : (cgt && clt) = false) :
    decodeClassWord (BitVec.ofBool false ++ BitVec.ofBool true ++ BitVec.ofBool pgt ++ BitVec.ofBool plt ++
      BitVec.ofBool cgt ++ BitVec.ofBool clt) = .ok (edgeOf pgt plt cgt clt) := by
  revert pgt plt cgt clt; decide

theorem classWord_of_warmup {s : State} (hp : s.phase = .warmup) :
    classWord s = BitVec.ofBool (decide (s.wcnt + 1 = s.cfg.centerSamples)) ++ BitVec.ofBool false ++
      BitVec.ofBool false ++ BitVec.ofBool false ++ BitVec.ofBool false ++ BitVec.ofBool false := by
  have hr : inRun s = false := by simp [inRun, hp]
  simp only [classWord, lastOfWarmup, hr, Bool.not_false, Bool.true_and, Bool.false_and]

theorem classWord_of_run {s : State} (hp : s.phase = .run) :
    classWord s = BitVec.ofBool false ++ BitVec.ofBool true ++ BitVec.ofBool (isHigh s s.prev) ++
      BitVec.ofBool (isLow s s.prev) ++ BitVec.ofBool (isHigh s s.sample) ++ BitVec.ofBool (isLow s s.sample) := by
  have hr : inRun s = true := by simp [inRun, hp]
  simp only [classWord, lastOfWarmup, hr, Bool.not_true, Bool.true_and, Bool.false_and]

theorem selects_edgeOf {s : State} (hp : s.phase = .run) :
    Selects s (edgeOf (isHigh s s.prev) (isLow s s.prev) (isHigh s s.sample) (isLow s s.sample)) := by
  unfold edgeOf
  split_ifs with hpn hcn hph hch hch <;>
    simp only [Bool.and_eq_true, Bool.not_eq_true', ← Bool.not_eq_true, isHigh_iff, isLow_iff, not_and, not_not] at *
  · exact .holdPrev hp hpn.1 hpn.2
  · exact .holdCur hp (or_iff_not_imp_left.2 hpn) hcn.1 hcn.2
  · exact .high hp hph hch
  · exact .fall hp hph (hcn hch)
  · exact .rise hp (hpn hph) hch
  · exact .low hp (hpn hph) (hcn hch)

/-- The decode is total (R76): every state and sample select one operation. -/
theorem decodeClassWord_classWord (s : State) : ∃ i, decodeClassWord (classWord s) = .ok i ∧ Selects s i := by
  cases hp : s.phase with
  | warmup =>
    refine ⟨_, (congrArg decodeClassWord (classWord_of_warmup hp)).trans (decodeClassWord_warmup _), ?_⟩
    by_cases hw : s.wcnt + 1 = s.cfg.centerSamples
    · simpa [hw] using Selects.cal hp hw
    · simpa [hw] using Selects.warm hp hw
  | run =>
    exact ⟨_, (congrArg decodeClassWord (classWord_of_run hp)).trans
      (decodeClassWord_run _ _ _ _ (not_isHigh_and_isLow s _) (not_isHigh_and_isLow s _)), selects_edgeOf hp⟩

end Sys2Proof.Machine
end

section
/-! SUPPORT. Operations and steps as functions of the state: `answer` alone decides whether they answer, so what they
answer is said once, as an equation per stimulus (10_state.md R20, R38). -/

namespace Sys2Proof.Machine

/-- `HIGH` before its step ending (41_pulse_demodulator.md R124). -/
def countHigh (s : State) : State :=
  { s with hctr := s.hctr + 1, preamble := s.preamble || overPreamble s (s.hctr + 1) }

/-- `WARM` before its step ending (40_center_tracker.md R100). -/
def sumSample (s : State) : State := { s with sum := s.sum + s.sample.toInt, wcnt := s.wcnt + 1 }

/-- The micro-operation that the pulse ending at a falling edge selects (30_encoding.md R77). -/
def pulse (s : State) : State := pulseStep (decodePulseCode (pulseCode s)) s

/-- The state an operation answers under an admitted configuration. -/
def effect : Instr → State → State
  | .warm, s => endStep (sumSample s)
  | .cal, s => endStep (calibrate s)
  | .rise, s => resetRun s
  | .high, s => endStep (countHigh s)
  | .fall, s => resetRun (pulse s)
  | .low, s => resetRun s
  | .holdPrev, s => endStep s
  | .holdCur, s => endStep s
  | .nobitInactive, s => s
  | .nobitShort, s => s
  | .bit0, s => bitIn false s
  | .bit1, s => bitIn true s
  | .byteClose, s => closeByte s
  | .validate, s => validateFrame s
  | .decode, s => decodeReading s
  | .recal, s => recalibrate s
  | .stale, s => dropStale s
  | .pre2act, s => startFrame s
  | .pw2b widths count, s => { s with result := some (pw2b s.cfg widths count) }
  | .asm16 l h, s => { s with stim := present (sampleOfBytes l h) :: s.stim }

theorem exec_eq_answer_effect (i : Instr) (s : State) : exec i s = answer s (effect i s) := by cases i <;> rfl

theorem exec_of_admitted {s : State} (ha : s.cfg.Admitted) (i : Instr) : exec i s = .next (effect i s) := by
  rw [exec_eq_answer_effect, answer_of_admitted ha]

theorem exec_next {i : Instr} {s t : State} (h : exec i s = .next t) : s.cfg.Admitted ∧ t = effect i s :=
  answer_next (exec_eq_answer_effect i s ▸ h)

theorem admitted_of_step {s t : State} (h : step s = .next t) : s.cfg.Admitted := (step_cases h).1

/-! ### The step, per stimulus -/

section
variable {s : State} (ha : s.cfg.Admitted)
include ha

theorem step_of_nothing (hs : s.stim = []) : step s = .next (openStep s []) := by
  simp [step, fetch, ha, hs]

theorem step_of_rst {v : Bool} {x : Sample} {rest : List Stim} (hs : s.stim = .cycle ⟨true, v, x⟩ :: rest) :
    step s = .next (resetBlock (openStep s rest)) := by
  simp [step, fetch, ha, hs, fetchCycle]

theorem step_of_idle {x : Sample} {rest : List Stim} (hs : s.stim = .cycle ⟨false, false, x⟩ :: rest) :
    step s = .next (openStep s rest) := by
  simp [step, fetch, ha, hs, fetchCycle]

theorem step_of_bytes {l h : Byte} {rest : List Stim} (hs : s.stim = .bytes l h :: rest) :
    step s = .next (effect (.asm16 l h) (openStep s rest)) := by
  simp [step, fetch, ha, hs, exec_of_admitted (s := openStep s rest) ha]

theorem step_of_call {widths : List Nat} {count : Nat} {rest : List Stim} (hs : s.stim = .call widths count :: rest) :
    step s = .next (effect (.pw2b widths count) (openStep s rest)) := by
  simp [step, fetch, ha, hs, exec_of_admitted (s := openStep s rest) ha]

theorem step_of_selected {x : Sample} {rest : List Stim} {i : Instr} (hs : s.stim = .cycle ⟨false, true, x⟩ :: rest)
    (hd : decodeClassWord (classWord (latch x (openStep s rest))) = .ok i) :
    step s = .next (effect i (latch x (openStep s rest))) :=
  (step_of_sample ha hs hd).trans (exec_of_admitted (s := latch x (openStep s rest)) ha i)

end

/-- The stimulus neither resets the block nor presents a sample. -/
def NoSample (s : State) : Prop :=
  (∀ v x rest, s.stim ≠ .cycle ⟨true, v, x⟩ :: rest) ∧ ∀ x rest, s.stim ≠ .cycle ⟨false, true, x⟩ :: rest

/-- A step without `rst` and without a sample changes no register: of the model's own fields it writes what the
configuration and the stimulus alone determine. -/
theorem step_of_noSample {s : State} (ha : s.cfg.Admitted) (hn : NoSample s) :
    ∃ r stim, ∀ s' : State, s'.cfg = s.cfg → s'.stim = s.stim →
      step s' = .next { s' with events := [], result := r, stim := stim } := by
  obtain ⟨hrst, hsample⟩ := hn
  match hs : s.stim with
  | [] => exact ⟨none, [], fun s' hc hs' => step_of_nothing (hc ▸ ha) hs'⟩
  | .bytes l h :: rest =>
    exact ⟨none, present (sampleOfBytes l h) :: rest, fun s' hc hs' => step_of_bytes (hc ▸ ha) hs'⟩
  | .call widths count :: rest =>
    exact ⟨some (pw2b s.cfg widths count), rest, fun s' hc hs' => by
      rw [step_of_call (hc ▸ ha) hs', ← hc]; rfl⟩
  | .cycle ⟨true, v, x⟩ :: rest => exact absurd hs (hrst v x rest)
  | .cycle ⟨false, true, x⟩ :: rest => exact absurd hs (hsample x rest)
  | .cycle ⟨false, false, x⟩ :: rest => exact ⟨none, rest, fun s' hc hs' => step_of_idle (hc ▸ ha) hs'⟩

/-- A step resets the block, runs the operation its sample selects, or changes no register. -/
theorem stim_cases (s : State) :
    (∃ v x rest, s.stim = .cycle ⟨true, v, x⟩ :: rest) ∨ (∃ x rest, s.stim = .cycle ⟨false, true, x⟩ :: rest) ∨
      NoSample s := by
  by_cases hr : ∃ v x rest, s.stim = .cycle ⟨true, v, x⟩ :: rest
  · exact .inl hr
  · by_cases hx : ∃ x rest, s.stim = .cycle ⟨false, true, x⟩ :: rest
    · exact .inr (.inl hx)
    · exact .inr (.inr ⟨fun v x rest h => hr ⟨v, x, rest, h⟩, fun x rest h => hx ⟨x, rest, h⟩⟩)

/-- What a step that answers did, by the stimulus it took. -/
inductive Stepped (s : State) : State → Prop
  | rst (v : Bool) (x : Sample) (rest : List Stim) : s.stim = .cycle ⟨true, v, x⟩ :: rest →
      Stepped s (resetBlock (openStep s rest))
  | sample (x : Sample) (rest : List Stim) (i : Instr) : s.stim = .cycle ⟨false, true, x⟩ :: rest →
      Selects (latch x (openStep s rest)) i → Stepped s (effect i (latch x (openStep s rest)))
  | other (r : Option (List Byte)) (stim : List Stim) : Stepped s { s with events := [], result := r, stim := stim }

theorem stepped_of_step {s t : State} (h : step s = .next t) : Stepped s t := by
  have ha := admitted_of_step h
  obtain ⟨v, x, rest, hs⟩ | ⟨x, rest, hs⟩ | hn := stim_cases s
  · cases h.symm.trans (step_of_rst ha hs)
    exact .rst v x rest hs
  · obtain ⟨i, hd, hsel⟩ := decodeClassWord_classWord (latch x (openStep s rest))
    cases h.symm.trans (step_of_selected ha hs hd)
    exact .sample x rest i hs hsel
  · obtain ⟨r, stim, hstep⟩ := step_of_noSample ha hn
    cases h.symm.trans (hstep s rfl rfl)
    exact .other r stim

end Sys2Proof.Machine
end

section
/-! SUPPORT. What the run reset, the bits of a frame and the validator leave as it is, and everything a falling edge can
do to a frame (41_pulse_demodulator.md R122, R127 to R134). -/

namespace Sys2Proof.Machine

/-! ### The end of a step after an edge -/

/-- The edge action with its PRE2ACT test (R122): the two ways a run of samples ends. -/
theorem resetRun_cases (s : State) :
    (s.preamble = true ∧ resetRun s = endStep (startFrame { s with hctr := 0 })) ∨
      (s.preamble = false ∧ resetRun s = endStep { s with hctr := 0 }) := by
  by_cases hp : s.preamble = true
  · exact .inl ⟨hp, resetRun_of_preamble hp⟩
  · exact .inr ⟨Bool.eq_false_of_not_eq_true hp, resetRun_of_no_preamble (Bool.eq_false_of_not_eq_true hp)⟩

section
variable (s : State)

@[simp] theorem resetRun_cfg : (resetRun s).cfg = s.cfg := by
  obtain ⟨-, h⟩ | ⟨-, h⟩ := resetRun_cases s <;> rw [h] <;> rfl

@[simp] theorem resetRun_phase : (resetRun s).phase = s.phase := by
  obtain ⟨-, h⟩ | ⟨-, h⟩ := resetRun_cases s <;> rw [h] <;> rfl

@[simp] theorem resetRun_frame : (resetRun s).frame = s.frame := by
  obtain ⟨-, h⟩ | ⟨-, h⟩ := resetRun_cases s <;> rw [h] <;> rfl

@[simp] theorem resetRun_staleCount : (resetRun s).staleCount = s.staleCount := by
  obtain ⟨-, h⟩ | ⟨-, h⟩ := resetRun_cases s <;> rw [h] <;> rfl

@[simp] theorem resetRun_events : (resetRun s).events = s.events := by
  obtain ⟨-, h⟩ | ⟨-, h⟩ := resetRun_cases s <;> rw [h] <;> rfl

/-- A run that has ended leaves no count and no pending preamble. -/
theorem resetRun_hctr_irrelevant (n : Nat) : resetRun { s with hctr := n } = resetRun s := rfl

end

/-! ### The validator -/

theorem validateFrame_of_ok {s : State} (h : checksumOk s.frame = true) :
    validateFrame s = clearFrameState (emit (readingOf s.cfg s.frame) s) := by
  rw [validateFrame_eq, verdict, if_pos h, if_pos h]

theorem validateFrame_of_not_ok {s : State} (h : checksumOk s.frame = false) :
    validateFrame s = clearFrameState (emit (.mismatch s.frame (checksumOf s.frame)) (recalibrate s)) := by
  rw [validateFrame_eq, verdict, if_neg (by simp [h]), if_neg (by simp [h])]

/-- What `ClearFrameState` overwrites does not reach a report (R34). -/
theorem clearFrameState_frame_only (e : Event) (s : State) (c : Byte) (p k : Fin 8) (n : Nat) (f : Frame) :
    clearFrameState (emit e { s with curByte := c, totBits := n, bitPos := p, byteCnt := k, frame := f }) =
      clearFrameState (emit e { s with frame := f }) := rfl

theorem clearFrameState_recalibrate_frame_only (e : Event) (s : State) (c : Byte) (p k : Fin 8) (n : Nat) (f : Frame) :
    clearFrameState (emit e (recalibrate
        { s with curByte := c, totBits := n, bitPos := p, byteCnt := k, frame := f })) =
      clearFrameState (emit e (recalibrate { s with frame := f })) := rfl

/-! ### Everything a falling edge can do -/

/-- The pulse is a bit of an open frame. -/
abbrev BitPulse (s : State) : Prop := s.active = true ∧ s.cfg.minLowBit < s.hctr

/-- `f` is the frame buffer of `s` but for the byte at `BYTECNT`. -/
abbrev FrameStored (s : State) (f : Frame) : Prop := ∀ i : Fin 8, i ≠ s.byteCnt → f[i] = s.frame[i]

/-- What the micro-operation of a falling edge leaves. -/
inductive PulseOutcome (s : State) : State → Prop
  | ignored : PulseOutcome s s
  | shifted (b : Bool) : BitPulse s → s.bitPos.val < 7 →
      PulseOutcome s
        { s with curByte := shiftIn s.curByte b, totBits := s.totBits + 1, bitPos := s.bitPos + 1 }
  | closed (f : Frame) : BitPulse s → FrameStored s f → s.bitPos.val = 7 → s.byteCnt.val < 7 →
      PulseOutcome s { s with curByte := 0, totBits := s.totBits + 1, bitPos := 0, byteCnt := s.byteCnt + 1, frame := f }
  | reading (f : Frame) : BitPulse s → FrameStored s f → s.bitPos.val = 7 → s.byteCnt.val = 7 → checksumOk f = true →
      PulseOutcome s (clearFrameState (emit (readingOf s.cfg f) { s with frame := f }))
  | mismatch (f : Frame) : BitPulse s → FrameStored s f → s.bitPos.val = 7 → s.byteCnt.val = 7 → checksumOk f = false →
      PulseOutcome s (clearFrameState (emit (.mismatch f (checksumOf f)) (recalibrate { s with frame := f })))
  | stale (f : Frame) : BitPulse s → FrameStored s f → (s.bitPos.val ≠ 7 → f = s.frame) →
      s.cfg.frameBitCount < s.totBits + 1 → PulseOutcome s (dropStale { s with frame := f })

theorem frameStored_set (s : State) (b : Byte) : FrameStored s (s.frame.set s.byteCnt.val b s.byteCnt.isLt) := by
  intro i hi
  rw [Frame.get_set, if_neg hi]

theorem pulse_outcome {s : State} (ha : s.cfg.Admitted) : PulseOutcome s (pulse s) := by
  unfold pulse
  obtain ⟨-, h⟩ | ⟨hact, hlong, h⟩ := pulseStep_cases s <;> rw [h]
  · exact .ignored
  have hb : BitPulse s := ⟨hact, hlong⟩
  obtain ⟨hpos, -, h⟩ | ⟨hpos, hcnt, -, h⟩ | ⟨hpos, hcnt, h⟩ | ⟨-, hover, f, hf, hsame, h⟩ :=
    bitIn_cases s (decide (s.cfg.minHighBit < s.hctr)) ha <;> rw [h]
  · exact .shifted _ hb hpos
  · exact .closed _ hb (frameStored_set s _) hpos hcnt
  · have hf := frameStored_set s (shiftIn s.curByte (decide (s.cfg.minHighBit < s.hctr)))
    generalize s.frame.set s.byteCnt.val (shiftIn s.curByte (decide (s.cfg.minHighBit < s.hctr))) s.byteCnt.isLt = f
      at hf
    cases hok : checksumOk f
    · rw [validateFrame_of_not_ok (by exact hok), clearFrameState_recalibrate_frame_only]
      exact .mismatch f hb hf hpos hcnt hok
    · rw [validateFrame_of_ok (by exact hok), clearFrameState_frame_only]
      exact .reading f hb hf hpos hcnt hok
  · exact .stale f hb hf hsame hover

end Sys2Proof.Machine
end

section
/-! SUPPORT. The invariants of 10_state.md R40: reset meets them and every step keeps them. -/

namespace Sys2Proof.Machine

/-! ### The parts of the invariant -/

/-- What R40 and R23, R24 say of the tracker's registers; no edge but the one that completes a bad frame writes them. -/
structure TrackerInv (s : State) : Prop where
  admitted : s.cfg.Admitted
  settled : s.phase = .run → s.wcnt = 0 ∧ s.sum = 0
  counted : s.wcnt < s.cfg.centerSamples
  sumLow : -32768 * (s.wcnt : Int) ≤ s.sum
  sumHigh : s.sum ≤ 32767 * (s.wcnt : Int)

theorem StepInv.tracker {s : State} (h : StepInv s) : TrackerInv s :=
  ⟨h.admitted, h.settled, h.counted, h.sumLow, h.sumHigh⟩

/-- A frame is open in `RUN` only. -/
theorem StepInv.run_of_active {s : State} (h : StepInv s) (ha : s.active = true) : s.phase = .run := by
  cases hp : s.phase with
  | run => rfl
  | warmup =>
    obtain ⟨-, -, hidle, -⟩ := h.idle hp
    exact nomatch hidle.symm.trans ha

/-- A tracker with nothing summed, as reset, `CAL` and `RECAL` leave it. -/
theorem trackerInv_of_empty {s : State} (ha : s.cfg.Admitted) (hw : s.wcnt = 0) (hs : s.sum = 0) : TrackerInv s where
  admitted := ha
  settled _ := ⟨hw, hs⟩
  counted := hw ▸ ((admitted_iff s.cfg).1 ha).1
  sumLow := by simp [hw, hs]
  sumHigh := by simp [hw, hs]

/-- With no bits received the invariant is one about the tracker. -/
theorem stepInv_of_noBits {s : State} (ht : TrackerInv s) (hh : s.hctr = 0) (hp : s.preamble = false)
    (ha : s.active = true → s.phase = .run) (hb : NoBits s) : StepInv s where
  admitted := ht.admitted
  idle hw := ⟨hh, hp, Bool.eq_false_of_not_eq_true fun h => by simp [ha h] at hw, hb⟩
  settled := ht.settled
  inactive _ := hb
  total := by simp [hb]
  long h := by simp [hp] at h
  fits := by simp [hb]
  counted := ht.counted
  sumLow := ht.sumLow
  sumHigh := ht.sumHigh

theorem resetWith_stepInv {c : Cfg} (hc : c.Admitted) (stim : List Stim) : StepInv (resetWith c stim) :=
  stepInv_of_noBits (trackerInv_of_empty hc rfl rfl) rfl rfl (fun h => nomatch h) ⟨rfl, rfl, rfl, rfl⟩

/-! ### The invariant and the fields it does not speak of -/

theorem StepInv.openStep {s : State} (h : StepInv s) (rest : List Stim) : StepInv (openStep s rest) := { h with }

theorem StepInv.latch {s : State} (h : StepInv s) (x : Sample) : StepInv (latch x s) := { h with }

theorem StepInv.endStep {s : State} (h : StepInv s) : StepInv (endStep s) := { h with }

/-! ### The operations a sample selects -/

/-- `s` with its run of high samples forgotten. -/
def forgetRun (s : State) : State := { s with hctr := 0, preamble := false }

theorem StepInv.forgetRun {s : State} (h : StepInv s) : StepInv (forgetRun s) :=
  { h with
    idle := fun hw => by obtain ⟨-, -, ha, hb⟩ := h.idle hw; exact ⟨rfl, rfl, ha, hb⟩
    long := fun hp => nomatch hp }

theorem stepInv_sumSample {s : State} (h : StepInv s) (hp : s.phase = .warmup)
    (hw : s.wcnt + 1 ≠ s.cfg.centerSamples) : StepInv (sumSample s) :=
  have hlow := BitVec.le_toInt s.sample
  have hhigh := BitVec.toInt_lt (x := s.sample)
  { h with
    settled := fun hr => by simp [sumSample, hp] at hr
    counted := by have := h.counted; simp only [sumSample]; omega
    sumLow := by have := h.sumLow; simp only [sumSample]; omega
    sumHigh := by have := h.sumHigh; simp only [sumSample]; omega }

theorem stepInv_calibrate {s : State} (ha : s.cfg.Admitted) : StepInv (calibrate s) :=
  stepInv_of_noBits (trackerInv_of_empty ha rfl rfl) rfl rfl (fun h => nomatch h) ⟨rfl, rfl, rfl, rfl⟩

theorem stepInv_countHigh {s : State} (h : StepInv s) (hp : s.phase = .run) : StepInv (countHigh s) :=
  { h with
    idle := fun hw => by simp [countHigh, hp] at hw
    long := fun hpre => by
      simp only [countHigh, overPreamble, Bool.or_eq_true, decide_eq_true_eq] at hpre ⊢
      obtain hold | hnew := hpre
      · exact Nat.lt_succ_of_lt (h.long hold)
      · exact hnew }

/-- A reset of the run keeps the invariant, if a pending preamble ends in `RUN`: it starts an empty frame. -/
theorem stepInv_resetRun {s : State} (h : StepInv (forgetRun s)) (hp : s.preamble = true → s.phase = .run) :
    StepInv (resetRun s) := by
  obtain ⟨hpre, hr⟩ | ⟨hpre, hr⟩ := resetRun_cases s <;> rw [hr]
  · have ht : TrackerInv (startFrame { s with hctr := 0 }) := { h.tracker with }
    exact (stepInv_of_noBits ht rfl rfl (fun _ => hp hpre) ⟨rfl, rfl, rfl, rfl⟩).endStep
  · have : forgetRun s = { s with hctr := 0 } := by simp [forgetRun, hpre]
    exact (this ▸ h).endStep

theorem shiftIn_toNat_lt {c : Byte} {n : Nat} (h : c.toNat < 2 ^ n) (b : Bool) : (shiftIn c b).toNat < 2 ^ (n + 1) := by
  have := Nat.mod_le (2 * c.toNat + b.toNat) 256
  have := Bool.toNat_le b
  rw [shiftIn_toNat, pow_succ]
  omega

/-- `ClearFrameState` leaves nothing for the invariant to say of the frame, once the run is forgotten. -/
theorem stepInv_forgetRun_cleared {s : State} (h : TrackerInv s) (ha : s.active = false) (hb : NoBits s) : StepInv (forgetRun s) :=
  stepInv_of_noBits { h with } rfl rfl (fun hact => by simp [forgetRun, ha] at hact) hb

/-- The bit, byte or frame that a falling edge closes keeps the invariant, the run of high samples aside. -/
theorem stepInv_forgetRun_pulse {s u : State} (h : StepInv s) (hu : PulseOutcome s u) : StepInv (forgetRun u) := by
  have hf := h.forgetRun
  have ht := h.tracker
  cases hu with
  | ignored => exact hf
  | shifted b hb hpos =>
    exact { hf with
      idle := fun hw => nomatch (h.run_of_active hb.1).symm.trans hw
      inactive := fun hi => by simp [hb.1, forgetRun] at hi
      total := by
        have := h.total
        simp only [forgetRun, Fin8.val_succ_of_lt hpos]
        omega
      fits := by
        simp only [forgetRun, Fin8.val_succ_of_lt hpos]
        exact shiftIn_toNat_lt h.fits b }
  | closed f hb _ hpos hcnt =>
    exact { hf with
      idle := fun hw => nomatch (h.run_of_active hb.1).symm.trans hw
      inactive := fun hi => by simp [hb.1, forgetRun] at hi
      total := by
        have := h.total
        simp only [forgetRun, Fin8.val_succ_of_lt hcnt, Fin.val_zero]
        omega
      fits := by simp [forgetRun] }
  | reading f => exact stepInv_forgetRun_cleared { ht with } rfl ⟨rfl, rfl, rfl, rfl⟩
  | mismatch f =>
    exact stepInv_forgetRun_cleared (trackerInv_of_empty ht.admitted rfl rfl) rfl ⟨rfl, rfl, rfl, rfl⟩
  | stale f => exact stepInv_forgetRun_cleared { ht with } rfl ⟨rfl, rfl, rfl, rfl⟩

/-- A preamble still pending after the micro-operation of a falling edge was pending before it, and `PHASE` is as it was. -/
theorem phase_of_pulse_preamble {s u : State} (hu : PulseOutcome s u) (hp : u.preamble = true) : u.phase = s.phase := by
  cases hu with
  | ignored | shifted | closed => rfl
  | reading | mismatch | stale => exact nomatch hp

theorem stepInv_effect {s : State} {i : Instr} (h : StepInv s) (hsel : Selects s i) : StepInv (effect i s) := by
  cases hsel with
  | warm hp hw => exact (stepInv_sumSample h hp hw).endStep
  | cal => exact (stepInv_calibrate h.admitted).endStep
  | rise hp | low hp => exact stepInv_resetRun h.forgetRun fun _ => hp
  | high hp => exact (stepInv_countHigh h hp).endStep
  | fall hp =>
    have hu := pulse_outcome h.admitted
    exact stepInv_resetRun (stepInv_forgetRun_pulse h hu) fun hpre => (phase_of_pulse_preamble hu hpre).trans hp
  | holdPrev | holdCur => exact h.endStep

theorem step_keeps_stepInv {s t : State} (h : StepInv s) (hst : step s = .next t) : StepInv t := by
  cases stepped_of_step hst with
  | rst => exact resetWith_stepInv h.admitted _
  | sample x rest i _ hsel => exact stepInv_effect ((h.openStep rest).latch x) hsel
  | other => exact { h with }

/-- Settles O43, by the stimulus the step took and the operation its sample selected. -/
theorem stepKeepsInvariants : Obligations.StepKeepsInvariants := fun _ _ => step_keeps_stepInv

/-- Settles O42: reset leaves no bits and nothing summed. -/
theorem resetMeetsInvariants : Obligations.ResetMeetsInvariants :=
  fun _ stim hc => ⟨resetWith_stepInv hc stim, by simp [LowModeInv]⟩

end Sys2Proof.Machine
end

section
/-! SUPPORT. The step around the operations (10_state.md R20, R36, R38, R40): what runs, that it answers, and that the
configuration stays. -/

namespace Sys2Proof.Machine

/-! ### The stimulus and its operation -/

/-- Settles O7: the state that holds the sample is the one `latch` makes of the opened step. -/
theorem stepRunsTheDecodedOperation : Obligations.StepRunsTheDecodedOperation :=
  fun _ _ _ _ ha hs hd => step_of_sample ha hs hd

/-- Settles O9: both stimuli only open the step, which empties the strobes. -/
theorem cycleWithoutSampleHoldsState : Obligations.CycleWithoutSampleHoldsState := by
  refine fun s ha => ⟨fun x rest hs => step_of_idle ha hs, fun hs => ?_⟩
  rw [step_of_nothing ha hs]
  simp only [openStep, hs]

/-! ### Every step answers -/

theorem safe_of_admitted {s : State} (ha : s.cfg.Admitted) : Safe s := by
  obtain ⟨v, x, rest, hs⟩ | ⟨x, rest, hs⟩ | hn := stim_cases s
  · exact ⟨_, step_of_rst ha hs⟩
  · obtain ⟨i, hd, -⟩ := decodeClassWord_classWord (latch x (openStep s rest))
    exact ⟨_, step_of_selected ha hs hd⟩
  · obtain ⟨r, stim, hstep⟩ := step_of_noSample ha hn
    exact ⟨_, hstep s rfl rfl⟩

/-- Settles O13: the decode of a class word that a state forms is total, and each operation answers through `answer`. -/
theorem everyOperationAndStepCompletes : Obligations.EveryOperationAndStepCompletes :=
  fun _ ha => ⟨safe_of_admitted ha, fun i => ⟨_, exec_of_admitted ha i⟩⟩

/-- A state that meets the invariants runs on for ever, and meets them at every step boundary. -/
theorem run_keeps_stepInv (k : Nat) {s : State} (h : StepInv s) :
    ∃ t, Host.Core.run core k s = .next t ∧ StepInv t := by
  induction k generalizing s with
  | zero => exact ⟨s, run_zero s, h⟩
  | succ k ih =>
    obtain ⟨u, hu⟩ := safe_of_admitted h.admitted
    rw [run_succ k hu]
    exact ih (step_keeps_stepInv h hu)

/-- Settles O44, from the reset state, which meets the invariants. -/
theorem runsFromResetKeepInvariants : Obligations.RunsFromResetKeepInvariants :=
  fun _ stim k hc => run_keeps_stepInv k (resetWith_stepInv hc stim)

/-! ### The configuration -/

theorem validateFrame_cfg (s : State) : (validateFrame s).cfg = s.cfg := by
  rw [validateFrame_eq]
  split <;> rfl

theorem closeByte_cfg (s : State) : (closeByte s).cfg = s.cfg := by
  unfold closeByte
  split
  · exact validateFrame_cfg _
  · rfl

theorem staleGuard_cfg (s : State) : (staleGuard s).cfg = s.cfg := by
  obtain ⟨-, h⟩ | ⟨-, h⟩ := staleGuard_cases s <;> rw [h]
  rfl

theorem bitIn_cfg (b : Bool) (s : State) : (bitIn b s).cfg = s.cfg := by
  unfold bitIn
  split_ifs
  · exact closeByte_cfg _
  · exact (staleGuard_cfg _).trans (closeByte_cfg _)
  · exact staleGuard_cfg _

theorem pulse_cfg (s : State) : (pulse s).cfg = s.cfg := by
  unfold pulse
  obtain ⟨-, h⟩ | ⟨-, -, h⟩ := pulseStep_cases s <;> rw [h]
  exact bitIn_cfg _ s

@[simp] theorem effect_cfg (i : Instr) (s : State) : (effect i s).cfg = s.cfg := by
  cases i with
  | rise | low => exact resetRun_cfg s
  | fall => exact (resetRun_cfg _).trans (pulse_cfg s)
  | bit0 | bit1 => exact bitIn_cfg _ s
  | byteClose => exact closeByte_cfg s
  | validate => exact validateFrame_cfg s
  | warm | cal | high | holdPrev | holdCur | nobitInactive | nobitShort | decode | recal | stale | pre2act
  | pw2b | asm16 => rfl

theorem step_cfg {s t : State} (h : step s = .next t) : t.cfg = s.cfg := by
  cases stepped_of_step h with
  | rst | other => rfl
  | sample x rest i => exact effect_cfg i _

/-- Settles O45: no operation writes the configuration, and `rst` keeps it. -/
theorem configurationIsNeverWritten : Obligations.ConfigurationIsNeverWritten := by
  refine fun s t => ⟨step_cfg, fun i h => ?_⟩
  obtain ⟨-, rfl⟩ := exec_next h
  exact effect_cfg i s

end Sys2Proof.Machine
end

section
/-! SUPPORT. What a step reports (60_exceptions.md R190, R199), with what it does to `PHASE` (10_state.md R32) and to
`STALE_COUNT` (R31). -/

namespace Sys2Proof.Machine

/-- The event of a step without `rst`, if it emits one, with the registers that change with it and only with it. -/
inductive Report (s t : State) : Prop
  | quiet : t.phase = s.phase → t.staleCount = s.staleCount → t.events = [] → Report s t
  | ready (c : Sample) : s.phase = .warmup → t.phase = .run → t.staleCount = s.staleCount → t.events = [.ready c] →
      Report s t
  | reading (f : Frame) : s.phase = .run → t.phase = .run → t.staleCount = s.staleCount →
      t.events = [readingOf s.cfg f] → Report s t
  | mismatch (f : Frame) : s.phase = .run → t.phase = .warmup → t.staleCount = s.staleCount →
      t.events = [.mismatch f (checksumOf f)] → Report s t
  | stale : s.phase = .run → t.phase = .run → t.staleCount = s.staleCount + 1 → t.events = [.stale] → Report s t

/-- A report speaks of no other register, nor of anything but these of the state before. -/
theorem Report.congr {s s' t t' : State} (h : Report s t) (hcfg : s'.cfg = s.cfg) (hph : s'.phase = s.phase)
    (hst : s'.staleCount = s.staleCount) (hph' : t'.phase = t.phase) (hst' : t'.staleCount = t.staleCount)
    (hev' : t'.events = t.events) : Report s' t' := by
  cases h with
  | quiet hp hc he => exact .quiet (by rw [hph', hp, hph]) (by rw [hst', hc, hst]) (hev'.trans he)
  | ready c hs hp hc he => exact .ready c (hph.trans hs) (hph'.trans hp) (by rw [hst', hc, hst]) (hev'.trans he)
  | reading f hs hp hc he =>
    exact .reading f (hph.trans hs) (hph'.trans hp) (by rw [hst', hc, hst]) (by rw [hev', he, hcfg])
  | mismatch f hs hp hc he => exact .mismatch f (hph.trans hs) (hph'.trans hp) (by rw [hst', hc, hst]) (hev'.trans he)
  | stale hs hp hc he => exact .stale (hph.trans hs) (hph'.trans hp) (by rw [hst', hc, hst]) (hev'.trans he)

theorem Report.resetRun {s u : State} (h : Report s u) : Report s (resetRun u) :=
  h.congr rfl rfl rfl (resetRun_phase u) (resetRun_staleCount u) (resetRun_events u)

theorem report_pulse {s u : State} (hp : s.phase = .run) (he : s.events = []) (hu : PulseOutcome s u) : Report s u := by
  cases hu with
  | ignored | shifted | closed => exact .quiet rfl rfl he
  | reading f => exact .reading f hp hp rfl (by simp [he])
  | mismatch f => exact .mismatch f hp rfl rfl (by simp [he])
  | stale f => exact .stale hp hp rfl (by simp [he])

theorem report_effect {s : State} {i : Instr} (ha : s.cfg.Admitted) (he : s.events = []) (hsel : Selects s i) :
    Report s (effect i s) := by
  cases hsel with
  | warm | high | holdPrev | holdCur => exact .quiet rfl rfl he
  | cal hp => exact .ready _ hp rfl rfl (congrArg (· ++ _) he)
  | rise | low => exact (Report.quiet (s := s) rfl rfl he).resetRun
  | fall hp => exact (report_pulse hp he (pulse_outcome ha)).resetRun

theorem step_report {s t : State} (h : step s = .next t) (hr : ∀ v x rest, s.stim ≠ .cycle ⟨true, v, x⟩ :: rest) :
    Report s t := by
  cases stepped_of_step h with
  | rst v x rest hs => exact absurd hs (hr v x rest)
  | other => exact .quiet rfl rfl rfl
  | sample x rest i _ hsel =>
    have ha : s.cfg.Admitted := admitted_of_step h
    have hrep := report_effect (s := latch x (openStep s rest)) ha rfl hsel
    exact hrep.congr rfl rfl rfl rfl rfl rfl

/-- Settles O47: `READY` and `MISMATCH` are the reports of the two operations that write `PHASE`. -/
theorem phaseChangesWithItsEvents : Obligations.PhaseChangesWithItsEvents := by
  intro s t h hr
  cases step_report h hr with
  | quiet hp _ he => rw [hp, he]; exact ⟨fun hs => by simp [hs], fun hs => by simp [hs]⟩
  | ready c hs hp _ he => simp [hs, hp, he]
  | reading f hs hp _ he => simp [hs, hp, he, readingOf]
  | mismatch f hs hp _ he => simp [hs, hp, he]
  | stale hs hp _ he => simp [hs, hp, he]

/-- Settles O48: `STALE` is the report of the one operation that writes `STALE_COUNT`. -/
theorem staleCountCountsStaleEvents : Obligations.StaleCountCountsStaleEvents := by
  intro s t h hr
  cases step_report h hr with
  | quiet _ hc he => simp [hc, he]
  | ready c _ _ hc he => simp [hc, he]
  | reading f _ _ hc he => simp [hc, he, readingOf]
  | mismatch f _ _ hc he => simp [hc, he]
  | stale _ _ hc he => simp [hc, he]

end Sys2Proof.Machine
end

section
/-! SUPPORT. The one operation that writes `FRAME`, and the bytes of it that nothing observes (10_state.md R35). -/

namespace Sys2Proof.Machine

/-! ### Which step writes the frame -/

theorem pulse_writes_frame {s u : State} (hu : PulseOutcome s u) (hne : u.frame ≠ s.frame) :
    BitPulse s ∧ s.bitPos.val = 7 ∧ FrameStored s u.frame := by
  cases hu with
  | ignored | shifted => exact absurd rfl hne
  | closed f hb hf hpos | reading f hb hf hpos | mismatch f hb hf hpos => exact ⟨hb, hpos, hf⟩
  | stale f hb hf hsame => exact ⟨hb, not_not.1 fun hpos => hne (hsame hpos), hf⟩

/-- Settles O50: of the operations a sample selects, only `FALL` writes the frame, with its eighth bit. -/
theorem onlyTheEighthBitWritesTheFrame : Obligations.OnlyTheEighthBitWritesTheFrame := by
  intro s t h hr hne
  cases stepped_of_step h with
  | rst v x rest hs => exact absurd hs (hr v x rest)
  | other => exact absurd rfl hne
  | sample x rest i hs hsel =>
    cases hsel with
    | warm | cal | high | holdPrev | holdCur => exact absurd rfl hne
    | rise | low => exact absurd (resetRun_frame _) hne
    | fall hp hprev hcur =>
      have ha : s.cfg.Admitted := admitted_of_step h
      have hu : PulseOutcome (latch x (openStep s rest)) _ := pulse_outcome ha
      have hframe : (effect .fall (latch x (openStep s rest))).frame = (pulse (latch x (openStep s rest))).frame :=
        resetRun_frame _
      rw [hframe] at hne ⊢
      obtain ⟨⟨hact, hlong⟩, hpos, hstored⟩ := pulse_writes_frame hu hne
      exact ⟨hact, hpos, hlong, ⟨x, rest, hs, hp, hprev, hcur⟩, hstored⟩

/-! ### Bytes that no step has written -/

theorem SameButStaleBytes.refl (s : State) : SameButStaleBytes s s := ⟨rfl, fun _ _ => rfl⟩

theorem SameButStaleBytes.exists_frame {s s' : State} (h : SameButStaleBytes s s') :
    ∃ f : Frame, s' = { s with frame := f } ∧ ∀ i : Fin 8, i < s.byteCnt → f[i] = s.frame[i] :=
  ⟨s'.frame, h⟩

/-- With no byte closed the whole buffer is unwritten. -/
theorem sameButStaleBytes_of_empty {s : State} (h : s.byteCnt = 0) (f : Frame) :
    SameButStaleBytes s { s with frame := f } :=
  ⟨rfl, fun i hi => by simp [h] at hi⟩

section
variable {s s' : State} (h : SameButStaleBytes s s')
include h

theorem SameButStaleBytes.endStep : SameButStaleBytes (endStep s) (endStep s') := by
  obtain ⟨f, rfl, hf⟩ := h.exists_frame
  exact ⟨rfl, hf⟩

theorem SameButStaleBytes.resetRun : SameButStaleBytes (resetRun s) (resetRun s') := by
  obtain ⟨f, rfl, hf⟩ := h.exists_frame
  by_cases hp : s.preamble = true
  · rw [resetRun_of_preamble hp, resetRun_of_preamble (s := { s with frame := f }) hp]
    exact (sameButStaleBytes_of_empty rfl f).endStep
  · have hp := Bool.eq_false_of_not_eq_true hp
    rw [resetRun_of_no_preamble hp, resetRun_of_no_preamble (s := { s with frame := f }) hp]
    exact ⟨rfl, hf⟩

theorem SameButStaleBytes.staleGuard : SameButStaleBytes (staleGuard s) (staleGuard s') := by
  obtain ⟨f, rfl, hf⟩ := h.exists_frame
  by_cases ho : overBudget s = true
  · have ho' : overBudget { s with frame := f } = true := ho
    simp only [Machine.staleGuard, ho, ho', if_true]
    exact sameButStaleBytes_of_empty rfl f
  · have ho' : ¬ overBudget { s with frame := f } = true := ho
    simp only [Machine.staleGuard, if_neg ho, if_neg ho']
    exact h

/-- Closing a byte writes the first unwritten one, and only a frame with all eight written is handed over. -/
theorem SameButStaleBytes.closeByte (ha : s.cfg.Admitted) : SameButStaleBytes (closeByte s) (closeByte s') := by
  obtain ⟨f, rfl, hf⟩ := h.exists_frame
  rcases Nat.lt_or_ge s.byteCnt.val 7 with hc | hc
  · have hl := (lastByteOfFrame_eq_false_iff ha).2 hc
    rw [closeByte_of_not_last hl, closeByte_of_not_last (s := { s with frame := f }) hl]
    refine ⟨rfl, fun i hi => ?_⟩
    have hi : i.val < s.byteCnt.val + 1 := by
      rw [← Fin8.val_succ_of_lt hc]; exact hi
    simp only [Frame.get_set]
    split_ifs with hne
    · rfl
    · have := Fin.val_ne_of_ne hne
      exact hf i (by omega)
  · have hc : s.byteCnt.val = 7 := by omega
    have hl := (lastByteOfFrame_iff ha).2 hc
    have hset : f.set s.byteCnt.val s.curByte s.byteCnt.isLt = s.frame.set s.byteCnt.val s.curByte s.byteCnt.isLt := by
      refine Vector.ext fun i hi => ?_
      by_cases hne : s.byteCnt.val = i
      · simp [hne]
      · rw [Vector.getElem_set_ne _ _ hne, Vector.getElem_set_ne _ _ hne]
        have hlt : i < s.byteCnt.val := by omega
        exact hf ⟨i, hi⟩ hlt
    rw [closeByte_of_last hl, closeByte_of_last (s := { s with frame := f }) hl]
    dsimp only
    rw [hset]
    exact .refl _

theorem SameButStaleBytes.bitIn (ha : s.cfg.Admitted) (b : Bool) : SameButStaleBytes (bitIn b s) (bitIn b s') := by
  obtain ⟨f, rfl, hf⟩ := h.exists_frame
  have hshift : SameButStaleBytes { s with curByte := shiftIn s.curByte b, totBits := s.totBits + 1 }
      { s with curByte := shiftIn s.curByte b, totBits := s.totBits + 1, frame := f } := ⟨rfl, hf⟩
  cases h8 : lastBitOfByte s
  · rw [bitIn_of_not_full b h8, bitIn_of_not_full (s := { s with frame := f }) b h8]
    exact SameButStaleBytes.staleGuard ⟨rfl, hf⟩
  · cases hl : lastByteOfFrame s
    · rw [bitIn_of_full b h8 hl, bitIn_of_full (s := { s with frame := f }) b h8 hl]
      exact (hshift.closeByte ha).staleGuard
    · rw [bitIn_of_complete b h8 hl, bitIn_of_complete (s := { s with frame := f }) b h8 hl]
      exact hshift.closeByte ha

theorem SameButStaleBytes.pulse (ha : s.cfg.Admitted) : SameButStaleBytes (pulse s) (pulse s') := by
  obtain ⟨f, rfl, hf⟩ := h.exists_frame
  have hcode : pulseCode { s with frame := f } = pulseCode s := rfl
  unfold Machine.pulse
  rw [hcode]
  cases decodePulseCode (pulseCode s) with
  | nobitInactive | nobitShort => exact h
  | bit0 => exact h.bitIn ha false
  | bit1 => exact h.bitIn ha true

theorem SameButStaleBytes.effect (ha : s.cfg.Admitted) {i : Instr} (hsel : Selects s i) :
    SameButStaleBytes (effect i s) (effect i s') := by
  obtain ⟨f, rfl, hf⟩ := h.exists_frame
  cases hsel with
  | warm | high | holdPrev | holdCur => exact ⟨rfl, hf⟩
  | cal => exact sameButStaleBytes_of_empty rfl f
  | rise | low => exact h.resetRun
  | fall => exact (h.pulse ha).resetRun

end

/-- Settles O51: an operation reads a frame byte only when the eighth is closed, and by then each has been written. -/
theorem unwrittenFrameBytesAreUnobservable : Obligations.UnwrittenFrameBytesAreUnobservable := by
  intro s s' t h hst
  have ha := admitted_of_step hst
  obtain ⟨f, rfl, hf⟩ := h.exists_frame
  obtain ⟨v, x, rest, hs⟩ | ⟨x, rest, hs⟩ | hn := stim_cases s
  · cases hst.symm.trans (step_of_rst ha hs)
    exact ⟨_, step_of_rst (s := { s with frame := f }) ha hs, .refl _⟩
  · obtain ⟨i, hd, hsel⟩ := decodeClassWord_classWord (latch x (openStep s rest))
    cases hst.symm.trans (step_of_selected ha hs hd)
    have hopen : SameButStaleBytes (latch x (openStep s rest)) (latch x (openStep { s with frame := f } rest)) :=
      ⟨rfl, hf⟩
    exact ⟨_, step_of_selected (s := { s with frame := f }) ha hs hd, hopen.effect ha hsel⟩
  · obtain ⟨r, stim, hstep⟩ := step_of_noSample ha hn
    cases hst.symm.trans (hstep s rfl rfl)
    exact ⟨_, hstep { s with frame := f } rfl rfl, rfl, hf⟩

end Sys2Proof.Machine
end

section
/-! SUPPORT. Two more registers of which a step reads less than they hold: `CENTER` in `WARMUP` (10_state.md R22) and the
high-run counter above `CFG.PREAMBLE_COUNT` (R26). -/

namespace Sys2Proof.Machine

/-! ### `CENTER` in `WARMUP` -/

theorem classWord_center_of_warmup {s : State} (hp : s.phase = .warmup) (c : Sample) :
    classWord { s with center := c } = classWord s :=
  (classWord_of_warmup (s := { s with center := c }) hp).trans (classWord_of_warmup hp).symm

theorem effect_center_of_warmup {s : State} {i : Instr} (hp : s.phase = .warmup) (hsel : Selects s i) (c : Sample) :
    effect i { s with center := c } = { effect i s with center := (effect i { s with center := c }).center } ∧
      ((effect i s).phase = .run → effect i { s with center := c } = effect i s) := by
  cases hsel with
  | warm => exact ⟨rfl, fun hr => nomatch hp.symm.trans hr⟩
  | cal => exact ⟨rfl, fun _ => rfl⟩
  | rise hr | high hr | fall hr | low hr | holdPrev hr | holdCur hr => exact nomatch hp.symm.trans hr

/-- Settles O20: `WARM` and `CAL` are all a sample selects in `WARMUP`; neither reads `CENTER`, and `CAL` writes it. -/
theorem centerIsUnreadInWarmup : Obligations.CenterIsUnreadInWarmup := by
  intro s t c hp hst
  have ha := admitted_of_step hst
  obtain ⟨v, x, rest, hs⟩ | ⟨x, rest, hs⟩ | hn := stim_cases s
  · cases hst.symm.trans (step_of_rst ha hs)
    exact ⟨_, step_of_rst (s := { s with center := c }) ha hs, rfl, fun _ => rfl⟩
  · obtain ⟨i, hd, hsel⟩ := decodeClassWord_classWord (latch x (openStep s rest))
    cases hst.symm.trans (step_of_selected ha hs hd)
    have hd' : decodeClassWord (classWord (latch x (openStep { s with center := c } rest))) = .ok i :=
      (congrArg decodeClassWord (classWord_center_of_warmup (s := latch x (openStep s rest)) hp c)).trans hd
    exact ⟨_, step_of_selected (s := { s with center := c }) ha hs hd',
      effect_center_of_warmup (s := latch x (openStep s rest)) hp hsel c⟩
  · obtain ⟨r, stim, hstep⟩ := step_of_noSample ha hn
    cases hst.symm.trans (hstep s rfl rfl)
    exact ⟨_, hstep { s with center := c } rfl rfl, rfl, fun hr => nomatch hp.symm.trans hr⟩

/-! ### The high-run counter above the preamble threshold -/

theorem validateFrame_hctr (s : State) (n : Nat) :
    validateFrame { s with hctr := n } = { validateFrame s with hctr := n } := by
  simp only [validateFrame_eq]
  split <;> rfl

theorem closeByte_hctr (s : State) (n : Nat) : closeByte { s with hctr := n } = { closeByte s with hctr := n } := by
  by_cases hl : lastByteOfFrame s = true
  · rw [closeByte_of_last hl, closeByte_of_last (s := { s with hctr := n }) hl, ← validateFrame_hctr]
  · have hl := Bool.eq_false_of_not_eq_true hl
    rw [closeByte_of_not_last hl, closeByte_of_not_last (s := { s with hctr := n }) hl]

theorem staleGuard_hctr (s : State) (n : Nat) : staleGuard { s with hctr := n } = { staleGuard s with hctr := n } := by
  have ho : overBudget { s with hctr := n } = overBudget s := rfl
  unfold staleGuard
  rw [ho]
  split <;> rfl

/-- The bits of a frame are handled without a look at the high-run counter. -/
theorem bitIn_hctr (b : Bool) (s : State) (n : Nat) : bitIn b { s with hctr := n } = { bitIn b s with hctr := n } := by
  cases h8 : lastBitOfByte s
  · rw [bitIn_of_not_full b h8, bitIn_of_not_full (s := { s with hctr := n }) b h8, ← staleGuard_hctr]
  · cases hl : lastByteOfFrame s
    · rw [bitIn_of_full b h8 hl, bitIn_of_full (s := { s with hctr := n }) b h8 hl, ← staleGuard_hctr, ← closeByte_hctr]
    · rw [bitIn_of_complete b h8 hl, bitIn_of_complete (s := { s with hctr := n }) b h8 hl, ← closeByte_hctr]

theorem pulse_saturate {s : State} (ha : s.cfg.Admitted) {c : Nat} (hc : s.cfg.preambleCount + 1 ≤ c) :
    pulse (saturate c s) = { pulse s with hctr := min s.hctr c } := by
  obtain ⟨-, hlow, hhigh, -⟩ := (admitted_iff s.cfg).1 ha
  have hcode : pulseCode (saturate c s) = pulseCode s := by
    have h1 : s.cfg.minLowBit < min s.hctr c ↔ s.cfg.minLowBit < s.hctr := by omega
    have h2 : s.cfg.minHighBit < min s.hctr c ↔ s.cfg.minHighBit < s.hctr := by omega
    simp only [pulseCode, saturate, h1, h2]
  unfold pulse
  rw [hcode]
  cases decodePulseCode (pulseCode s) with
  | nobitInactive | nobitShort => rfl
  | bit0 | bit1 => exact bitIn_hctr _ s _

theorem countHigh_saturate {s : State} {c : Nat} (hc : s.cfg.preambleCount + 1 ≤ c) :
    saturate c (countHigh (saturate c s)) = saturate c (countHigh s) := by
  have hcount : min (min s.hctr c + 1) c = min (s.hctr + 1) c := by omega
  have hover : s.cfg.preambleCount < min s.hctr c + 1 ↔ s.cfg.preambleCount < s.hctr + 1 := by omega
  simp only [countHigh, saturate, overPreamble, hcount, hover]

theorem effect_saturate {s : State} {i : Instr} (ha : s.cfg.Admitted) (hsel : Selects s i) {c : Nat}
    (hc : s.cfg.preambleCount + 1 ≤ c) : saturate c (effect i (saturate c s)) = saturate c (effect i s) := by
  cases hsel with
  | warm | holdPrev | holdCur => simp [effect, saturate, endStep, sumSample]
  | cal => rfl
  | high => exact congrArg endStep (countHigh_saturate hc)
  | rise | low => exact congrArg (saturate c) (resetRun_hctr_irrelevant s _)
  | fall =>
    have h : resetRun (pulse (saturate c s)) = resetRun (pulse s) := by
      rw [pulse_saturate ha hc, resetRun_hctr_irrelevant]
    exact congrArg (saturate c) h

/-- Settles O52: only the pulse code and the test of `HIGH` read the counter, and both compare it with thresholds below
the ceiling. -/
theorem saturatingCounterIsIndistinguishable : Obligations.SaturatingCounterIsIndistinguishable := by
  intro s t c hc hst
  have ha := admitted_of_step hst
  obtain ⟨v, x, rest, hs⟩ | ⟨x, rest, hs⟩ | hn := stim_cases s
  · cases hst.symm.trans (step_of_rst ha hs)
    exact ⟨_, step_of_rst (s := saturate c s) ha hs, rfl⟩
  · obtain ⟨i, hd, hsel⟩ := decodeClassWord_classWord (latch x (openStep s rest))
    cases hst.symm.trans (step_of_selected ha hs hd)
    exact ⟨_, step_of_selected (s := saturate c s) ha hs hd, effect_saturate (s := latch x (openStep s rest)) ha hsel hc⟩
  · obtain ⟨r, stim, hstep⟩ := step_of_noSample ha hn
    cases hst.symm.trans (hstep s rfl rfl)
    exact ⟨_, hstep (saturate c s) rfl rfl, by simp [saturate]⟩

end Sys2Proof.Machine
end

section
/-! SUPPORT. The output ports as functions of the events of the step (10_state.md R38), and the widths of what they carry
(30_encoding.md R73, 42_frame_validator.md R161, R165). -/

namespace Sys2Proof.Machine

/-! ### The values of the payload ports -/

theorem laidOut_frameWord (f : Frame) : LaidOut f (frameWord f) := by
  have := f[0].isLt
  have := f[1].isLt
  have := f[2].isLt
  have := f[3].isLt
  have := f[4].isLt
  have := f[5].isLt
  have := f[6].isLt
  have := f[7].isLt
  rintro ⟨i, hi⟩
  apply BitVec.eq_of_toNat_eq
  simp only [BitVec.extractLsb'_toNat, Nat.shiftRight_eq_div_pow, frameWord_toNat]
  interval_cases i <;> simp <;> omega

theorem checksumOf_toNat_byteSum (f : Frame) : (checksumOf f).toNat = byteSum f % 256 := checksumOf_toNat f

theorem adcOf_lt (f : Frame) : adcOf f < 65536 := by
  have := f[4].isLt
  have := f[5].isLt
  unfold adcOf
  omega

theorem mantissa_lt (vref : Nat) (f : Frame) : vref * adcOf f < 2 ^ (16 + Nat.size vref) := by
  have hv := Nat.lt_size_self vref
  have ha : adcOf f < 2 ^ 16 := adcOf_lt f
  rw [pow_add, mul_comm]
  exact Nat.mul_lt_mul'' ha hv

theorem scale_toInt (f : Frame) : (BitVec.ofInt 9 (exponentOf f - 15)).toInt = f[6].toInt - 15 := by
  have hlow := BitVec.le_toInt f[6]
  have hhigh := BitVec.toInt_lt (x := f[6])
  unfold exponentOf
  rw [BitVec.toInt_ofInt, Int.bmod_eq_of_le] <;> omega

/-! ### The strobes -/

theorem Event.code_eq_zero (e : Event) : e.code = 0 ↔ ∃ c, e = .ready c := by cases e <;> simp [Event.code]

theorem Event.code_eq_one (e : Event) :
    e.code = 1 ↔ ∃ f adc ex wMant wExp, e = .reading f adc ex wMant wExp := by cases e <;> simp [Event.code]

theorem Event.code_eq_two (e : Event) : e.code = 2 ↔ ∃ f cs, e = .mismatch f cs := by cases e <;> simp [Event.code]

theorem Event.code_eq_three (e : Event) : e.code = 3 ↔ e = .stale := by cases e <;> simp [Event.code]

theorem strobe_iff (s : State) (code : Nat) : strobe s code = true ↔ ∃ e ∈ s.events, e.code = code := by
  simp [strobe]

section
variable (s : State)

theorem evReady_iff : (portsOf s).evReady = true ↔ ∃ c, .ready c ∈ s.events := by
  simp [portsOf, strobe_iff, Event.code_eq_zero]

theorem evReading_iff : (portsOf s).evReading = true ↔
    ∃ f adc e wMant wExp, .reading f adc e wMant wExp ∈ s.events := by
  simp only [portsOf, strobe_iff, Event.code_eq_one]
  constructor
  · rintro ⟨_, he, f, adc, e, wMant, wExp, rfl⟩
    exact ⟨f, adc, e, wMant, wExp, he⟩
  · rintro ⟨f, adc, e, wMant, wExp, he⟩
    exact ⟨_, he, f, adc, e, wMant, wExp, rfl⟩

theorem evMismatch_iff : (portsOf s).evMismatch = true ↔ ∃ f cs, .mismatch f cs ∈ s.events := by
  simp only [portsOf, strobe_iff, Event.code_eq_two]
  constructor
  · rintro ⟨_, he, f, cs, rfl⟩
    exact ⟨f, cs, he⟩
  · rintro ⟨f, cs, he⟩
    exact ⟨_, he, f, cs, rfl⟩

theorem evStale_iff : (portsOf s).evStale = true ↔ .stale ∈ s.events := by
  simp [portsOf, strobe_iff, Event.code_eq_three]

end

/-! ### Ports that are not valid -/

theorem noFramePorts_of_no_report {s : State} (hr : (portsOf s).evReading = false)
    (hm : (portsOf s).evMismatch = false) : NoFramePorts (portsOf s) := by
  have hnone : s.events.findSome? Event.frame = none := by
    refine List.findSome?_eq_none_iff.2 fun e he => ?_
    cases e with
    | ready | stale => rfl
    | reading f adc ex wMant wExp =>
      exact absurd ((evReading_iff s).2 ⟨f, adc, ex, wMant, wExp, he⟩) (by simp [hr])
    | mismatch f cs => exact absurd ((evMismatch_iff s).2 ⟨f, cs, he⟩) (by simp [hm])
  simp [NoFramePorts, portsOf, hnone]

theorem readingPayload_eq_none {es : List Event} (h : ∀ f adc e wMant wExp, .reading f adc e wMant wExp ∉ es) :
    readingPayload es = none := by
  induction es with
  | nil => rfl
  | cons e es ih =>
    have ih := ih fun f adc ex wMant wExp hmem => h f adc ex wMant wExp (.tail _ hmem)
    cases e with
    | reading f adc ex wMant wExp => exact absurd (.head _) (h f adc ex wMant wExp)
    | ready | mismatch | stale => exact ih

theorem noReadingPorts_of_no_reading {s : State} (hr : (portsOf s).evReading = false) : NoReadingPorts (portsOf s) := by
  have hnone : readingPayload s.events = none := readingPayload_eq_none fun f adc e wMant wExp he =>
    absurd ((evReading_iff s).2 ⟨f, adc, e, wMant, wExp, he⟩) (by simp [hr])
  simp [NoReadingPorts, portsOf, hnone]

/-! ### The ports with one event -/

/-- The strobes are functions of the event list alone. -/
theorem strobesOf_eq {s : State} {es : List Event} (h : s.events = es) : strobesOf (portsOf s) =
    (es.any (·.code == 0), es.any (·.code == 1), es.any (·.code == 2), es.any (·.code == 3)) := by
  subst h; rfl

/-- With neither strobe of a reported frame set no payload port is valid. -/
theorem noPorts_of_strobes {s : State} {r st : Bool} (h : strobesOf (portsOf s) = (r, false, false, st)) :
    strobesOf (portsOf s) = (r, false, false, st) ∧ NoFramePorts (portsOf s) ∧ NoReadingPorts (portsOf s) := by
  have hr : (portsOf s).evReading = false := congrArg (·.2.1) h
  have hm : (portsOf s).evMismatch = false := congrArg (·.2.2.1) h
  exact ⟨h, noFramePorts_of_no_report hr hm, noReadingPorts_of_no_reading hr⟩

/-- The ports of a reported frame. -/
theorem framePorts_of_report {s : State} {f : Frame} (h : s.events.findSome? Event.frame = some f) :
    (∃ w, (portsOf s).frame = some w ∧ LaidOut f w) ∧
      ∃ cs : Byte, (portsOf s).csum = some cs ∧ cs.toNat = byteSum f % 256 :=
  ⟨⟨frameWord f, by simp [portsOf, h], laidOut_frameWord f⟩,
    ⟨checksumOf f, by simp [portsOf, h], checksumOf_toNat_byteSum f⟩⟩

/-- The ports of a reading. -/
theorem readingPorts_of_reading {s : State} {f : Frame} (h : s.events = [readingOf s.cfg f]) :
    (∃ a : BitVec 16, (portsOf s).adc = some a ∧ a.toNat = 256 * f[4].toNat + f[5].toNat) ∧
      (portsOf s).exp = some f[6] ∧
      (∃ m, (portsOf s).wMant = some m ∧ m = s.cfg.vref * (256 * f[4].toNat + f[5].toNat) ∧
        m < 2 ^ (16 + Nat.size s.cfg.vref)) ∧
      ∃ w : BitVec 9, (portsOf s).wExp = some w ∧ w.toInt = f[6].toInt - 15 := by
  have hp : readingPayload s.events = some (adcOf f, exponentOf f, s.cfg.vref * adcOf f, exponentOf f - 15) := by
    rw [h]; rfl
  refine ⟨⟨BitVec.ofNat 16 (adcOf f), by simp [portsOf, hp], Nat.mod_eq_of_lt (adcOf_lt f)⟩,
    by simp [portsOf, hp, exponentOf], ⟨s.cfg.vref * adcOf f, by simp [portsOf, hp], rfl, mantissa_lt _ f⟩,
    ⟨BitVec.ofInt 9 (exponentOf f - 15), by simp [portsOf, hp], scale_toInt f⟩⟩

theorem ports_of_mismatch {s : State} {f : Frame} {cs : Byte} (h : s.events = [.mismatch f cs]) :
    strobesOf (portsOf s) = (false, false, true, false) ∧ (∃ w, (portsOf s).frame = some w ∧ LaidOut f w) ∧
      (∃ cs : Byte, (portsOf s).csum = some cs ∧ cs.toNat = byteSum f % 256) ∧ NoReadingPorts (portsOf s) := by
  obtain ⟨hframe, hcsum⟩ := framePorts_of_report (s := s) (f := f) (by rw [h]; rfl)
  have hstrobes := strobesOf_eq h
  exact ⟨hstrobes, hframe, hcsum, noReadingPorts_of_no_reading (congrArg (·.2.1) hstrobes)⟩

/-- Settles O55: strobes and payload ports, event by event. -/
theorem portsCarryTheEvent : Obligations.PortsCarryTheEvent := by
  intro s
  refine ⟨by simp [portsOf, inRun], rfl, rfl, evReady_iff s, evReading_iff s, evMismatch_iff s, evStale_iff s,
    noFramePorts_of_no_report, noReadingPorts_of_no_reading, fun h => noPorts_of_strobes (strobesOf_eq h),
    fun c h => noPorts_of_strobes (strobesOf_eq h), fun h => noPorts_of_strobes (strobesOf_eq h),
    fun f h => ports_of_mismatch h, fun f h => ?_⟩
  obtain ⟨hframe, hcsum⟩ := framePorts_of_report (s := s) (f := f) (by rw [h]; rfl)
  exact ⟨strobesOf_eq h, hframe, hcsum, readingPorts_of_reading h⟩

end Sys2Proof.Machine
end

section
/-! SUPPORT. The front end `ASM16` and the samples of a byte stream (20_memory.md R52, R54); the units run on their own
stimuli. -/

namespace Sys2Proof.Machine

/-! ### The samples of a byte stream -/

theorem samplesOfBytes_length (bs : List Byte) : (samplesOfBytes bs).length = bs.length / 2 := by
  induction bs using samplesOfBytes.induct with
  | case1 l h rest ih =>
    simp only [samplesOfBytes, List.length_cons, ih]
    omega
  | case2 | case3 => simp [samplesOfBytes]

/-- Sample `k` is made of the bytes at `2k` and `2k + 1`, the low one first (R52). -/
theorem samplesOfBytes_getElem? (bs : List Byte) (k : Nat) (hk : 2 * k + 1 < bs.length) :
    (samplesOfBytes bs)[k]? = some (sampleOfBytes bs[2 * k] bs[2 * k + 1]) := by
  induction bs using samplesOfBytes.induct generalizing k with
  | case1 l h rest ih =>
    cases k with
    | zero => rfl
    | succ k => exact ih k (by simp only [List.length_cons] at hk; omega)
  | case2 | case3 => simp at hk

/-- Settles O6: the pairs of bytes by induction on the stream, then the value of each sample. -/
theorem byteStreamGivesSamples : Obligations.ByteStreamGivesSamples :=
  fun bs => ⟨samplesOfBytes_length bs, fun k hk => ⟨_, samplesOfBytes_getElem? bs k hk, sampleOfBytes_toInt _ _⟩⟩

/-! ### `ASM16` and the steps that run a unit -/

/-- Settles O39: the sample of the two bytes goes to the head of the stimulus. -/
theorem asm16MakesOneSample : Obligations.Asm16MakesOneSample :=
  fun _ l h ha => ⟨sampleOfBytes l h, sampleOfBytes_toInt l h, exec_of_admitted ha (.asm16 l h)⟩

/-- Settles O8: the fetch selects the unit that the stimulus names. -/
theorem stepRunsTheUnitsCalled : Obligations.StepRunsTheUnitsCalled :=
  fun s rest ha =>
    ⟨fun l h hs => (step_of_bytes ha hs).trans (exec_of_admitted (s := openStep s rest) ha (.asm16 l h)).symm,
      fun widths count hs =>
        (step_of_call ha hs).trans (exec_of_admitted (s := openStep s rest) ha (.pw2b widths count)).symm⟩

/-- What the last step emitted and returned is gone before anything is fetched (10_state.md R38). -/
theorem fetch_events_result_irrelevant (s : State) (es : List Event) (r : Option (List Byte)) :
    fetch { s with events := es, result := r } = fetch s := rfl

theorem step_events_result_irrelevant (s : State) (es : List Event) (r : Option (List Byte)) :
    step { s with events := es, result := r } = step s := by
  simp only [step, fetch_events_result_irrelevant]

/-- Settles O15: the front end's step writes only the stimulus and the fields that the next step empties. -/
theorem byteFrontEndPresentsItsSample : Obligations.ByteFrontEndPresentsItsSample := by
  intro s t l h rest ha hs hst
  cases hst.symm.trans (step_of_bytes ha hs)
  exact ⟨step_events_result_irrelevant { s with stim := present (sampleOfBytes l h) :: rest } [] none, rfl, rfl⟩

end Sys2Proof.Machine
end

section
/-! SUPPORT. The opcode table against the codes a state forms (30_encoding.md R75 to R80): the comparisons with `CENTER`
decide what a class word selects, and the rows it matches have one mnemonic. -/

namespace Sys2Proof.Machine

/-! ### What the comparisons select -/

theorem not_highAt_of_lowAt {s : State} {v : Sample} (h : LowAt s v) : ¬ HighAt s v := by omega

theorem highAt_or_lowAt_of_low {s : State} (hm : s.cfg.centerEqMode = .low) (v : Sample) : HighAt s v ∨ LowAt s v := by
  have := Int.lt_trichotomy v.toInt s.center.toInt
  tauto

/-- The conditions of R120 determine the comparison bits of the class word, so they determine the row. -/
theorem edgeOf_of_selects {s : State} {i : Instr} (hp : s.phase = .run) (h : Selects s i) :
    edgeOf (isHigh s s.prev) (isLow s s.prev) (isHigh s s.sample) (isLow s s.sample) = i := by
  simp only [edgeOf, Bool.and_eq_true, Bool.not_eq_true', ← Bool.not_eq_true, isHigh_iff, isLow_iff]
  cases h with
  | warm hw | cal hw => exact nomatch hp.symm.trans hw
  | high _ hph hch => simp [hph, hch]
  | fall _ hph hcl => simp [hph, hcl, not_highAt_of_lowAt hcl]
  | rise _ hpl hch => simp [hpl, hch, not_highAt_of_lowAt hpl]
  | low _ hpl hcl => simp [hpl, hcl, not_highAt_of_lowAt hpl, not_highAt_of_lowAt hcl]
  | holdPrev _ hph hpl => simp [hph, hpl]
  | holdCur _ hpn hch hcl => rw [if_neg fun hn => hpn.elim hn.1 hn.2, if_pos ⟨hch, hcl⟩]

/-- The decoder reads what the comparisons select: the converse of `decodeClassWord_classWord`. -/
theorem decodeClassWord_of_selects {s : State} {i : Instr} (h : Selects s i) :
    decodeClassWord (classWord s) = .ok i := by
  cases hp : s.phase with
  | warmup =>
    rw [classWord_of_warmup hp, decodeClassWord_warmup]
    cases h with
    | warm _ hw => simp [hw]
    | cal _ hw => simp [hw]
    | rise hr | high hr | fall hr | low hr | holdPrev hr | holdCur hr => exact nomatch hp.symm.trans hr
  | run =>
    rw [classWord_of_run hp, decodeClassWord_run _ _ _ _ (not_isHigh_and_isLow s _) (not_isHigh_and_isLow s _),
      edgeOf_of_selects hp h]

/-- Settles O3: each clause names the comparisons under which `Selects` holds. -/
theorem classWordSelectsTheOperation : Obligations.ClassWordSelectsTheOperation := by
  refine fun s => ⟨fun hp => ?_, fun hp => ⟨?_, ?_, ?_, ?_, ?_, ?_⟩⟩
  · split
    next hw => exact decodeClassWord_of_selects (.cal hp hw)
    next hw => exact decodeClassWord_of_selects (.warm hp hw)
  · exact fun hpl hch => decodeClassWord_of_selects (.rise hp hpl hch)
  · exact fun hph hch => decodeClassWord_of_selects (.high hp hph hch)
  · exact fun hph hcl => decodeClassWord_of_selects (.fall hp hph hcl)
  · exact fun hpl hcl => decodeClassWord_of_selects (.low hp hpl hcl)
  · exact fun hph hpl => decodeClassWord_of_selects (.holdPrev hp hph hpl)
  · exact fun hpn hch hcl => decodeClassWord_of_selects (.holdCur hp hpn hch hcl)

/-! ### The rows a class word matches -/

theorem firstHit_mem {width : Nat} {α : Type} {rows : List (Row width α)} {w : BitVec width} {a : α}
    (h : firstHit rows w = some a) : ∃ r ∈ rows, r.hits w = true ∧ r.op = a := by
  induction rows with
  | nil => cases h
  | cons r rs ih =>
    rw [firstHit] at h
    split at h
    next hr => exact ⟨r, List.mem_cons_self, hr, Option.some.inj h⟩
    next =>
      obtain ⟨r', hmem, hrow⟩ := ih h
      exact ⟨r', List.mem_cons_of_mem r hmem, hrow⟩

theorem decodeClassWord_ok {w : BitVec 6} {i : Instr} (h : decodeClassWord w = .ok i) :
    ClassWord.reachable w = true ∧ firstHit classRows w = some i := by
  unfold decodeClassWord at h
  split at h
  next hr =>
    refine ⟨hr, ?_⟩
    split at h
    next hf => cases h; exact hf
    next => cases h
  next => cases h

/-- Rows overlap on class words that some state forms only where they share a mnemonic: the two rows of `HOLD` (R76). -/
theorem mnemonic_unique_of_reachable : ∀ w : BitVec 6, ClassWord.reachable w = true →
    ∀ r ∈ classRows, r.hits w = true → ∀ r' ∈ classRows, r'.hits w = true → r.op.mnemonic = r'.op.mnemonic := by
  decide

/-- In mode low every sample is high or low, so nothing selects a row of `HOLD` (R135). -/
theorem mnemonic_ne_hold_of_low {s : State} {i : Instr} (hm : s.cfg.centerEqMode = .low) (h : Selects s i) :
    i.mnemonic ≠ "HOLD" := by
  cases h with
  | warm | cal | rise | high | fall | low => decide
  | holdPrev _ hh hl | holdCur _ _ hh hl => exact absurd (highAt_or_lowAt_of_low hm _) (not_or.2 ⟨hh, hl⟩)

/-- Settles O4: the decoded operation is that of the first matching row, and the other matching rows share its mnemonic. -/
theorem classWordMatchesOneMnemonic : Obligations.ClassWordMatchesOneMnemonic := by
  intro s
  obtain ⟨i, hd, hsel⟩ := decodeClassWord_classWord s
  obtain ⟨hreach, hfirst⟩ := decodeClassWord_ok hd
  obtain ⟨r₀, hmem, hhit, hop⟩ := firstHit_mem hfirst
  refine ⟨i, hd, fun r hr hrw => ?_, ⟨r₀, hmem, hhit, hop⟩, fun hm => mnemonic_ne_hold_of_low hm hsel⟩
  rw [← hop]
  exact mnemonic_unique_of_reachable _ hreach r hr hrw r₀ hmem hhit

/-! ### Words of the table and the encoder -/

/-- Settles O1: the decoder evaluated on the words. -/
theorem tableWordsDecodeToTheirRows : Obligations.TableWordsDecodeToTheirRows := by
  unfold Obligations.TableWordsDecodeToTheirRows
  decide

/-- Settles O2: one round trip per operation. -/
theorem decodeInvertsEncode : Obligations.DecodeInvertsEncode
  | .warm => Laws.RoundTrip.warm
  | .cal => Laws.RoundTrip.cal
  | .rise => Laws.RoundTrip.rise
  | .high => Laws.RoundTrip.high
  | .fall => Laws.RoundTrip.fall
  | .low => Laws.RoundTrip.low
  | .holdPrev => Laws.RoundTrip.holdPrev
  | .holdCur => Laws.RoundTrip.holdCur
  | .nobitInactive => Laws.RoundTrip.nobitInactive
  | .nobitShort => Laws.RoundTrip.nobitShort
  | .bit0 => Laws.RoundTrip.bit0
  | .bit1 => Laws.RoundTrip.bit1
  | .byteClose => Laws.RoundTrip.byteClose
  | .validate => Laws.RoundTrip.validate
  | .decode => Laws.RoundTrip.decode
  | .recal => Laws.RoundTrip.recal
  | .stale => Laws.RoundTrip.stale
  | .pre2act => Laws.RoundTrip.pre2act
  | .pw2b widths count => Laws.RoundTrip.pw2b widths count
  | .asm16 l h => Laws.RoundTrip.asm16 l h

end Sys2Proof.Machine
end

section
/-! SUPPORT. A frame and its 64-bit value: the layout of 30_encoding.md R73 determines each from the other. -/

namespace Sys2Proof.Machine

theorem laidOut_frameOfWord (w : BitVec 64) : LaidOut (frameOfWord w) w
  | 0 | 1 | 2 | 3 | 4 | 5 | 6 | 7 => rfl

theorem LaidOut.frame_unique {f f' : Frame} {w : BitVec 64} (h : LaidOut f w) (h' : LaidOut f' w) : f = f' :=
  Vector.ext fun i hi => (h ⟨i, hi⟩).symm.trans (h' ⟨i, hi⟩)

/-- Bit `k` of the word is bit `k % 8` of byte `7 - k / 8`. -/
theorem LaidOut.getLsbD {f : Frame} {w : BitVec 64} (h : LaidOut f w) {k : Nat} (hk : k < 64) :
    w.getLsbD k = f[7 - k / 8].getLsbD (k % 8) := by
  have hpos : 56 - 8 * (7 - k / 8) + k % 8 = k := by omega
  have hbit : k % 8 < 8 := by omega
  have hbyte : w.extractLsb' (56 - 8 * (7 - k / 8)) 8 = f[7 - k / 8] := h ⟨7 - k / 8, by omega⟩
  rw [← hbyte, BitVec.getLsbD_extractLsb', hpos, decide_eq_true hbit, Bool.true_and]

theorem LaidOut.word_unique {f : Frame} {w w' : BitVec 64} (h : LaidOut f w) (h' : LaidOut f w') : w = w' :=
  BitVec.eq_of_getLsbD_eq fun _ hk => (h.getLsbD hk).trans (h'.getLsbD hk).symm

/-- Settles O5: `frameWord` and `frameOfWord` both keep to the layout, and a layout has one frame and one word. -/
theorem frameWordRoundTrip : Obligations.FrameWordRoundTrip :=
  ⟨laidOut_frameWord, fun f => (laidOut_frameOfWord (frameWord f)).frame_unique (laidOut_frameWord f),
    fun w => (laidOut_frameWord (frameOfWord w)).word_unique (laidOut_frameOfWord w)⟩

end Sys2Proof.Machine
end

section
/-! SUPPORT. The Wave-Center Tracker: what `WARM` and `CAL` do to a state, the steps of a warm-up, and who writes `CENTER`
(40_center_tracker.md R100 to R103). -/

namespace Sys2Proof.Machine

/-! ### The two operations -/

/-- Settles O16: the effect of `WARM`. -/
theorem warmSumsTheSample : Obligations.WarmSumsTheSample := fun _ ha => exec_of_admitted ha .warm

/-- The floor of a mean of samples is a sample value. -/
theorem floorDiv_mem_range {a : Int} {k : Nat} (hk : 1 ≤ k) (hlow : -32768 * (k : Int) ≤ a) (hhigh : a ≤ 32767 * (k : Int)) :
    -32768 ≤ floorDiv a k ∧ floorDiv a k ≤ 32767 := by
  obtain ⟨hle, hlt⟩ := floorDiv_spec a hk
  have hk0 : (0 : Int) < k := by omega
  have h1 : floorDiv a k ≤ 32767 := le_of_mul_le_mul_left (by linarith) hk0
  have h2 : -32768 < floorDiv a k + 1 := lt_of_mul_lt_mul_left (by linarith) hk0.le
  omega

/-- `CENTER` after `CAL` is the floor of the mean (R101): on a sum of samples the sixteen bits hold all of it. -/
theorem calibrate_center_isFloor {s : State} (hw : s.wcnt + 1 = s.cfg.centerSamples)
    (hlow : -32768 * (s.wcnt : Int) ≤ s.sum) (hhigh : s.sum ≤ 32767 * (s.wcnt : Int)) :
    s.cfg.centerSamples * (calibrate s).center.toInt ≤ s.sum + s.sample.toInt ∧
      s.sum + s.sample.toInt < s.cfg.centerSamples * ((calibrate s).center.toInt + 1) := by
  have hk : 1 ≤ s.cfg.centerSamples := by omega
  have hmin := BitVec.le_toInt s.sample
  have hmax := BitVec.toInt_lt (x := s.sample)
  obtain ⟨hcmin, hcmax⟩ := floorDiv_mem_range (a := s.sum + s.sample.toInt) hk (by omega) (by omega)
  have hc : (calibrate s).center.toInt = floorDiv (s.sum + s.sample.toInt) s.cfg.centerSamples :=
    BitVec.toInt_ofInt_eq_self (by decide) (by omega) (by omega)
  rw [hc]
  exact floorDiv_spec _ hk

/-- Settles O17: the floor fits `CENTER`, and the rest is the effect of `CAL`. -/
theorem calSetsCenterToTheFloor : Obligations.CalSetsCenterToTheFloor := by
  intro s ha hw hlow hhigh
  obtain ⟨hle, hlt⟩ := calibrate_center_isFloor hw hlow hhigh
  exact ⟨_, exec_of_admitted ha .cal, hle, hlt, rfl⟩

/-! ### A warm-up -/

/-- In `WARMUP` the count alone selects the operation of a sample (30_encoding.md R76). -/
theorem step_of_warmup {s : State} {x : Sample} {rest : List Stim} (ha : s.cfg.Admitted) (hp : s.phase = .warmup)
    (hs : s.stim = present x :: rest) :
    step s = .next (effect (if decide (s.wcnt + 1 = s.cfg.centerSamples) then .cal else .warm)
      (latch x (openStep s rest))) :=
  step_of_selected ha hs <|
    (congrArg decodeClassWord (classWord_of_warmup (s := latch x (openStep s rest)) hp)).trans (decodeClassWord_warmup _)

/-- `u` is `s` with the samples `xs` summed, the warm-up not yet at its end and `rest` still to come. -/
structure Summed (s : State) (xs : List Sample) (rest : List Stim) (u : State) : Prop where
  cfg : u.cfg = s.cfg
  phase : u.phase = .warmup
  wcnt : u.wcnt = s.wcnt + xs.length
  sum : u.sum = s.sum + (xs.map BitVec.toInt).sum
  n : u.n = s.n + xs.length
  center : u.center = s.center
  stim : u.stim = rest
  quiet : s.events = [] ∨ xs ≠ [] → u.events = []

/-- One `WARM` more in front of a sum of samples. -/
theorem Summed.cons {s u : State} {x : Sample} {xs : List Sample} {rest stim : List Stim}
    (h : Summed (effect .warm (latch x (openStep s stim))) xs rest u) : Summed s (x :: xs) rest u where
  cfg := h.cfg
  phase := h.phase
  wcnt := by rw [h.wcnt, List.length_cons, add_comm xs.length, ← add_assoc]; rfl
  sum := by rw [h.sum, List.map_cons, List.sum_cons, ← add_assoc]; rfl
  n := by rw [h.n, List.length_cons, add_comm xs.length, ← add_assoc]; rfl
  center := h.center
  stim := h.stim
  quiet _ := h.quiet (.inl rfl)

/-- Samples that do not fill the warm-up are summed, one `WARM` each. -/
theorem run_summed {s : State} {xs : List Sample} {rest : List Stim} (ha : s.cfg.Admitted) (hp : s.phase = .warmup)
    (hw : s.wcnt + xs.length < s.cfg.centerSamples) (hs : s.stim = xs.map present ++ rest) :
    ∃ u, Host.Core.run core xs.length s = .next u ∧ Summed s xs rest u := by
  induction xs generalizing s with
  | nil => exact ⟨s, run_zero s, rfl, hp, rfl, by simp, rfl, rfl, hs, by simp⟩
  | cons x xs ih =>
    rw [List.length_cons, add_comm xs.length, ← add_assoc] at hw
    have hstep := step_of_warmup ha hp hs
    rw [decide_eq_false (by omega)] at hstep
    obtain ⟨u, hrun, hu⟩ := ih (s := effect .warm (latch x (openStep s (xs.map present ++ rest)))) ha hp hw rfl
    exact ⟨u, (run_succ _ hstep).trans hrun, hu.cons⟩

/-- R23: the bounds of a sum of samples. -/
theorem sum_toInt_bounds (xs : List Sample) : -32768 * (xs.length : Int) ≤ (xs.map BitVec.toInt).sum ∧
    (xs.map BitVec.toInt).sum ≤ 32767 * (xs.length : Int) := by
  induction xs with
  | nil => simp
  | cons x xs ih =>
    have hmin := BitVec.le_toInt x
    have hmax := BitVec.toInt_lt (x := x)
    simp only [List.map_cons, List.sum_cons, List.length_cons]
    omega

/-- The sample that fills a warm-up is averaged in by `CAL`. -/
theorem step_of_summed {s u : State} {ys : List Sample} {y : Sample} {rest : List Stim} (ha : s.cfg.Admitted)
    (hstart : WarmStart s) (hlen : ys.length + 1 = s.cfg.centerSamples) (hu : Summed s ys (present y :: rest) u) :
    ∃ t, step u = .next t ∧ t.phase = .run ∧ t.stim = rest ∧ t.n = s.n + (ys.length + 1) ∧
      t.events = [.ready t.center] ∧ t.wcnt = 0 ∧ t.sum = 0 ∧
      s.cfg.centerSamples * t.center.toInt ≤ ((ys ++ [y]).map BitVec.toInt).sum ∧
      ((ys ++ [y]).map BitVec.toInt).sum < s.cfg.centerSamples * (t.center.toInt + 1) := by
  obtain ⟨-, hw, hsum⟩ := hstart
  have hcount : u.wcnt = ys.length := by rw [hu.wcnt, hw, zero_add]
  have hacc : u.sum = (ys.map BitVec.toInt).sum := by rw [hu.sum, hsum, zero_add]
  have hlast : u.wcnt + 1 = u.cfg.centerSamples := by rw [hcount, hlen, hu.cfg]
  have htotal : ((ys ++ [y]).map BitVec.toInt).sum = u.sum + y.toInt := by simp [hacc]
  have hstep := step_of_warmup (hu.cfg ▸ ha) hu.phase hu.stim
  rw [decide_eq_true hlast] at hstep
  obtain ⟨hlow, hhigh⟩ := sum_toInt_bounds ys
  rw [← hcount, ← hacc] at hlow hhigh
  rw [htotal, ← hu.cfg]
  exact ⟨_, hstep, rfl, rfl, congrArg (· + 1) hu.n, rfl, rfl, rfl,
    calibrate_center_isFloor (s := latch y (openStep u rest)) hlast hlow hhigh⟩

/-- Settles O18: all samples but the last are summed by `WARM`, and the last is averaged in by `CAL`. -/
theorem warmupAveragesExactlyItsSamples : Obligations.WarmupAveragesExactlyItsSamples := by
  intro s xs rest ha hstart hlen hs
  have ⟨hp, hw, _⟩ := hstart
  constructor
  · intro k hk hkl
    have htake : (xs.take k).length = k := List.length_take_of_le hkl.le
    have hsplit : s.stim = (xs.take k).map present ++ ((xs.drop k).map present ++ rest) := by
      rw [hs, ← List.append_assoc, ← List.map_append, List.take_append_drop]
    obtain ⟨u, hrun, hu⟩ := run_summed ha hp (by omega) hsplit
    rw [htake] at hrun
    exact ⟨u, hrun, hu.phase, hu.quiet (.inr (List.ne_nil_of_length_pos (by omega))), hu.center⟩
  · obtain rfl | ⟨ys, y, rfl⟩ := List.eq_nil_or_concat' xs
    · have hpos := ((admitted_iff s.cfg).1 ha).1
      exact absurd hlen (by rw [List.length_nil]; omega)
    rw [List.length_append, List.length_singleton] at hlen ⊢
    obtain ⟨u, hrun, hu⟩ := run_summed (xs := ys) (rest := present y :: rest) ha hp (by omega) (by simpa using hs)
    obtain ⟨t, hstep, ht⟩ := step_of_summed ha hstart hlen hu
    exact ⟨t, (run_add ys.length 1 hrun).trans (run_succ 0 hstep), ht⟩

/-! ### Who writes `CENTER` -/

theorem resetRun_center (s : State) : (resetRun s).center = s.center := by
  obtain ⟨-, h⟩ | ⟨-, h⟩ := resetRun_cases s <;> rw [h] <;> rfl

theorem PulseOutcome.center {s u : State} (h : PulseOutcome s u) : u.center = s.center := by
  cases h with
  | ignored | shifted | closed | reading | mismatch | stale => rfl

/-- Of the operations a sample selects, `CAL` alone writes `CENTER`. -/
theorem effect_center {s : State} {i : Instr} (ha : s.cfg.Admitted) (hsel : Selects s i) (hi : i ≠ .cal) :
    (effect i s).center = s.center := by
  cases hsel with
  | cal => exact absurd rfl hi
  | rise | low => exact resetRun_center s
  | fall => exact (resetRun_center _).trans (pulse_outcome ha).center
  | warm | high | holdPrev | holdCur => rfl

theorem Selects.of_cal {s : State} (h : Selects s .cal) : s.phase = .warmup ∧ s.wcnt + 1 = s.cfg.centerSamples := by
  cases h with
  | cal hp hw => exact ⟨hp, hw⟩

/-- Settles O19: a sample writes `CENTER` by `CAL` only, and without a sample a step writes no register but by `rst`. -/
theorem onlyCalWritesCenter : Obligations.OnlyCalWritesCenter := by
  intro s t h hne
  have ha := admitted_of_step h
  cases stepped_of_step h with
  | rst v x rest hs => exact .inr ⟨v, x, rest, hs⟩
  | other => exact absurd rfl hne
  | sample x rest i hs hsel =>
    obtain rfl : i = .cal := by
      by_contra hi
      exact hne (effect_center (s := latch x (openStep s rest)) ha hsel hi)
    obtain ⟨hp, hw⟩ := hsel.of_cal
    exact .inl ⟨x, rest, hs, hp, hw, rfl⟩

end Sys2Proof.Machine
end

section
/-! SUPPORT. The edge operations and the end of every step (41_pulse_demodulator.md R122 to R127, R135, R136). -/

namespace Sys2Proof.Machine

/-! ### The end of a step -/

section
variable (s : State)

@[simp] theorem resetRun_prev : (resetRun s).prev = s.sample := by
  obtain ⟨-, h⟩ | ⟨-, h⟩ := resetRun_cases s <;> rw [h] <;> rfl

@[simp] theorem resetRun_n : (resetRun s).n = s.n + 1 := by
  obtain ⟨-, h⟩ | ⟨-, h⟩ := resetRun_cases s <;> rw [h] <;> rfl

@[simp] theorem resetRun_hctr : (resetRun s).hctr = 0 := by
  obtain ⟨-, h⟩ | ⟨-, h⟩ := resetRun_cases s <;> rw [h] <;> rfl

@[simp] theorem resetRun_preamble : (resetRun s).preamble = false := by
  obtain ⟨-, h⟩ | ⟨hp, h⟩ := resetRun_cases s <;> rw [h]
  · rfl
  · exact hp

end

/-- The micro-operation of a falling edge writes neither the sample nor the count of samples. -/
theorem PulseOutcome.sample_n {s u : State} (h : PulseOutcome s u) : u.sample = s.sample ∧ u.n = s.n := by
  cases h with
  | ignored | shifted | closed | reading | mismatch | stale => exact ⟨rfl, rfl⟩

/-- Whatever operation a sample selects ends with `PREV <- s ; N <- N + 1` (R136). -/
theorem effect_prev_n {s : State} {i : Instr} (ha : s.cfg.Admitted) (hsel : Selects s i) :
    (effect i s).prev = s.sample ∧ (effect i s).n = s.n + 1 := by
  cases hsel with
  | warm | cal | high | holdPrev | holdCur => exact ⟨rfl, rfl⟩
  | rise | low => exact ⟨resetRun_prev s, resetRun_n s⟩
  | fall =>
    obtain ⟨hsample, hn⟩ := (pulse_outcome ha).sample_n
    exact ⟨(resetRun_prev _).trans hsample, (resetRun_n _).trans (congrArg (· + 1) hn)⟩

/-- Settles O14, by the operation the sample selects. -/
theorem everySampleStepEndsAlike : Obligations.EverySampleStepEndsAlike := by
  intro s x rest ha hs
  obtain ⟨i, hd, hsel⟩ := decodeClassWord_classWord (latch x (openStep s rest))
  exact ⟨_, step_of_selected ha hs hd, effect_prev_n (s := latch x (openStep s rest)) ha hsel⟩

/-! ### The edge operations -/

/-- Settles O21: both operations are the reset of the run, with its PRE2ACT test. -/
theorem riseAndLowResetTheRun : Obligations.RiseAndLowResetTheRun := by
  intro s i ha hi
  have he : exec i s = .next (resetRun s) := by
    obtain rfl | rfl := hi
    · exact exec_of_admitted ha .rise
    · exact exec_of_admitted ha .low
  rw [he]
  exact ⟨fun hp => congrArg _ (resetRun_of_no_preamble hp), fun hp => congrArg _ (resetRun_of_preamble hp)⟩

theorem countHigh_of_over {s : State} (h : s.cfg.preambleCount < s.hctr + 1) :
    countHigh s = { s with hctr := s.hctr + 1, preamble := true } := by simp [countHigh, overPreamble, h]

theorem countHigh_of_not_over {s : State} (h : ¬ s.cfg.preambleCount < s.hctr + 1) :
    countHigh s = { s with hctr := s.hctr + 1 } := by simp [countHigh, overPreamble, h]

/-- Settles O22, by the test of `HIGH` after the increment. -/
theorem highCountsAndMarksThePreamble : Obligations.HighCountsAndMarksThePreamble := by
  intro s ha
  have he : exec .high s = .next (endStep (countHigh s)) := exec_of_admitted ha .high
  refine ⟨fun h => ?_, fun h => ?_⟩
  · rw [he, countHigh_of_over h]; rfl
  · rw [he, countHigh_of_not_over h]; rfl

/-- Settles O23: the effect of `HOLD`. -/
theorem holdOnlyEndsTheStep : Obligations.HoldOnlyEndsTheStep :=
  fun _ ha => ⟨exec_of_admitted ha .holdPrev, exec_of_admitted ha .holdCur⟩

/-! ### The micro-operation of `FALL` -/

/-- Settles O27: the effect of `NOBIT`. -/
theorem nobitChangesNothing : Obligations.NobitChangesNothing :=
  fun _ ha => ⟨exec_of_admitted ha .nobitInactive, exec_of_admitted ha .nobitShort⟩

theorem effect_instr (op : PulseOp) (s : State) : effect op.instr s = pulseStep op s := by cases op <;> rfl

/-- The operation of the table that the pulse of a falling edge selects (30_encoding.md R77). -/
theorem instr_of_pulseCode (s : State) : (decodePulseCode (pulseCode s)).instr =
    if s.active = false then .nobitInactive
    else if s.hctr ≤ s.cfg.minLowBit then .nobitShort
    else if s.hctr ≤ s.cfg.minHighBit then .bit0 else .bit1 := by
  rw [decodePulseCode_pulseCode]
  split_ifs <;> rfl

/-- Settles O24: `FALL` is the reset of the run after the micro-operation, which leaves the sample and `N` alone. -/
theorem fallDecidesThenResets : Obligations.FallDecidesThenResets := by
  intro s ha
  have hmicro : exec (decodePulseCode (pulseCode s)).instr s = .next (pulse s) :=
    (exec_of_admitted ha _).trans (congrArg _ (effect_instr _ s))
  have hfall : exec .fall s = .next (resetRun (pulse s)) := exec_of_admitted ha .fall
  obtain ⟨hsample, hn⟩ := (pulse_outcome ha).sample_n
  refine ⟨_, _, instr_of_pulseCode s, hmicro, fun hp => ?_, fun hp => ?_⟩
  · rw [hfall, resetRun_of_no_preamble hp, ← hsample, ← hn]; rfl
  · rw [hfall, resetRun_of_preamble hp, ← hsample, ← hn]; rfl

end Sys2Proof.Machine
end

section
/-! SUPPORT. The bits and bytes of a frame, its end by the guard and its start after a preamble (41_pulse_demodulator.md R122,
R128 to R134, R137). -/

namespace Sys2Proof.Machine

/-! ### One micro-operation -/

/-- Settles O30: the effect of `STALE`. -/
theorem staleDiscardsAndCounts : Obligations.StaleDiscardsAndCounts := fun _ ha => exec_of_admitted ha .stale

/-- Settles O31: the effect of `PRE2ACT`. -/
theorem preambleEndStartsAnEmptyFrame : Obligations.PreambleEndStartsAnEmptyFrame :=
  fun _ ha => exec_of_admitted ha .pre2act

/-- Settles O29: the byte goes to `FRAME[BYTECNT]`, and after the last one the count is back at 0. -/
theorem byteCloseStoresOneByte : Obligations.ByteCloseStoresOneByte := by
  intro s ha
  have he : exec .byteClose s = .next (closeByte s) := exec_of_admitted ha .byteClose
  refine ⟨s.frame.set s.byteCnt.val s.curByte s.byteCnt.isLt, fun i => Frame.get_set _ _ _ _, fun hc => ?_, fun hc => ?_⟩
  · rw [closeByte_of_not_last ((lastByteOfFrame_eq_false_iff ha).2 hc)] at he
    exact ⟨_, he, Fin8.val_succ_of_lt hc, rfl⟩
  · have hb : s.byteCnt + 1 = 0 := by rw [show s.byteCnt = 7 from Fin.ext hc]; rfl
    rw [he, closeByte_of_last ((lastByteOfFrame_iff ha).2 hc), hb]
    exact (exec_of_admitted (by exact ha) .validate).symm

/-- `s` with the bit `b` shifted in and counted (R122), before the tests for a full byte and for the guard. -/
def shiftBit (b : Bool) (s : State) : State := { s with curByte := shiftIn s.curByte b, totBits := s.totBits + 1 }

theorem staleGuard_eq (s : State) : staleGuard s = if s.cfg.frameBitCount < s.totBits then dropStale s else s := by
  simp [staleGuard, overBudget]

/-- A bit that fills no byte, and the guard on it. -/
theorem bitIn_of_short {s : State} (b : Bool) (hpos : s.bitPos.val < 7) :
    bitIn b s = if s.cfg.frameBitCount < s.totBits + 1 then dropStale (shiftBit b s)
      else { shiftBit b s with bitPos := s.bitPos + 1 } := by
  rw [bitIn_of_not_full b ((lastBitOfByte_eq_false_iff s).2 hpos), staleGuard_eq]
  rfl

/-- A bit that fills a byte but not the frame, and the guard on it. -/
theorem bitIn_of_byte {s : State} (b : Bool) (ha : s.cfg.Admitted) (hpos : s.bitPos.val = 7) (hcnt : s.byteCnt.val < 7) :
    bitIn b s = if s.cfg.frameBitCount < s.totBits + 1 then dropStale (closeByte (shiftBit b s))
      else closeByte (shiftBit b s) := by
  have hl := (lastByteOfFrame_eq_false_iff ha).2 hcnt
  have hclose := closeByte_of_not_last (s := shiftBit b s) hl
  rw [bitIn_of_full b ((lastBitOfByte_iff s).2 hpos) hl, staleGuard_eq, ← shiftBit, hclose]
  rfl

/-- The last bit of a frame: the byte is closed and no guard is tested. -/
theorem bitIn_of_frame {s : State} (b : Bool) (ha : s.cfg.Admitted) (hpos : s.bitPos.val = 7) (hcnt : s.byteCnt.val = 7) :
    bitIn b s = closeByte (shiftBit b s) :=
  bitIn_of_complete b ((lastBitOfByte_iff s).2 hpos) ((lastByteOfFrame_iff ha).2 hcnt)

theorem exec_bit {s : State} (ha : s.cfg.Admitted) (b : Bool) :
    exec (if b then .bit1 else .bit0) s = .next (bitIn b s) := by
  cases b
  · exact exec_of_admitted ha .bit0
  · exact exec_of_admitted ha .bit1

/-- Settles O28, by the tests of `BITIN`: the byte full, the frame full, the budget exceeded. -/
theorem bitsShiftInMostSignificantFirst : Obligations.BitsShiftInMostSignificantFirst := by
  intro s b ha
  have hstale (v : State) (hv : v.cfg = s.cfg) : exec .stale v = .next (dropStale v) := exec_of_admitted (hv ▸ ha) .stale
  have hclose : exec .byteClose (shiftBit b s) = .next (closeByte (shiftBit b s)) :=
    exec_of_admitted (s := shiftBit b s) ha .byteClose
  refine ⟨shiftBit b s, rfl, shiftIn_toNat s.curByte b, ?_⟩
  rw [exec_bit ha, hstale (shiftBit b s) rfl, hclose]
  refine ⟨fun hpos hin => ?_, fun hpos hover => ?_, fun hpos hcnt => ?_, fun hpos hcnt hin => ?_, fun hpos hcnt hover => ?_⟩
  · rw [bitIn_of_short b hpos, if_neg (Nat.not_lt.2 hin)]
    exact ⟨_, rfl, Fin8.val_succ_of_lt hpos, rfl⟩
  · rw [bitIn_of_short b hpos, if_pos hover]
  · rw [bitIn_of_frame b ha hpos hcnt]
  · rw [bitIn_of_byte b ha hpos hcnt, if_neg (Nat.not_lt.2 hin)]
  · rw [bitIn_of_byte b ha hpos hcnt, if_pos hover]
    exact ⟨_, rfl, (hstale _ (closeByte_cfg (shiftBit b s))).symm⟩

/-! ### A falling edge inside a frame -/

theorem validateFrame_events (s : State) : (validateFrame s).events = s.events ++ [verdict s.cfg s.frame] := by
  rw [validateFrame_eq]
  split <;> rfl

theorem validateFrame_staleCount (s : State) : (validateFrame s).staleCount = s.staleCount := by
  rw [validateFrame_eq]
  split <;> rfl

/-- A report leaves the frame state as `ClearFrameState` does (R132). -/
theorem validateFrame_cleared (s : State) :
    (validateFrame s).preamble = false ∧ (validateFrame s).active = false ∧ NoBits (validateFrame s) := by
  rw [validateFrame_eq]
  exact ⟨rfl, rfl, rfl, rfl, rfl, rfl⟩

/-- A pulse as long as a preamble is a 1 inside a frame: the thresholds are in order (00_scope.md R7). -/
theorem pulse_of_long {s : State} (h : StepInv s) (hact : s.active = true) (hpre : s.preamble = true) :
    pulse s = bitIn true s := by
  obtain ⟨-, hlow, hhigh, -⟩ := (admitted_iff s.cfg).1 h.admitted
  have hlong := h.long hpre
  obtain ⟨hn | hn, -⟩ | ⟨-, -, hp⟩ := pulseStep_cases s
  · exact nomatch hact.symm.trans hn
  · omega
  · exact hp.trans (by rw [decide_eq_true (by omega)])

/-- With the last bit of the last byte the frame handed over is the buffer with that byte stored. -/
theorem frame_set_last (f : Frame) {k : Fin 8} (hk : k.val = 7) (b : Byte) :
    (f.set k.val b k.isLt)[7] = b ∧ ∀ i : Fin 8, i.val < 7 → (f.set k.val b k.isLt)[i] = f[i] := by
  obtain rfl : k = 7 := Fin.ext hk
  refine ⟨(Frame.get_set f 7 7 b).trans (if_pos rfl), fun i hi => ?_⟩
  rw [Frame.get_set, if_neg (by rintro rfl; exact absurd hi (by decide))]

/-- Settles O32, by everything a bit can do: only a frame that completed or went stale is gone before the PRE2ACT test. -/
theorem longPulseRestartsTheFrame : Obligations.LongPulseRestartsTheFrame := by
  intro s h hact hpre
  have ha := h.admitted
  refine ⟨resetRun (bitIn true s), ?_, resetRun_hctr _, resetRun_preamble _, ?_⟩
  · rw [← pulse_of_long h hact hpre]
    exact exec_of_admitted ha .fall
  obtain ⟨hpos, hin, hb⟩ | ⟨hpos, hcnt, hin, hb⟩ | ⟨hpos, hcnt, hb⟩ | ⟨hn, hover, f, -, -, hb⟩ := bitIn_cases s true ha <;>
    rw [hb]
  · rw [resetRun_of_preamble (by exact hpre)]
    exact ⟨⟨rfl, rfl, rfl, rfl⟩, fun hc => by omega, fun _ ho => by omega, fun _ _ => ⟨rfl, rfl, rfl⟩⟩
  · rw [resetRun_of_preamble (by exact hpre)]
    exact ⟨⟨rfl, rfl, rfl, rfl⟩, fun hc => by omega, fun _ ho => by omega, fun _ _ => ⟨rfl, rfl, rfl⟩⟩
  · obtain ⟨hlast, hothers⟩ := frame_set_last s.frame hcnt (shiftIn s.curByte true)
    generalize s.frame.set s.byteCnt.val (shiftIn s.curByte true) s.byteCnt.isLt = f at hlast hothers
    generalize hu : { s with curByte := 0, totBits := s.totBits + 1, bitPos := 0, byteCnt := 0, frame := f } = u
    obtain ⟨hup, hua, hub⟩ := validateFrame_cleared u
    rw [resetRun_of_no_preamble hup]
    refine ⟨hub, fun _ => ⟨hua, ?_, f, ?_, hothers, ?_⟩, fun hc => absurd ⟨hpos, hcnt⟩ hc,
      fun hc => absurd ⟨hpos, hcnt⟩ hc⟩
    · exact (validateFrame_staleCount u).trans (by rw [← hu])
    · rw [hlast]
      exact shiftIn_toNat s.curByte true
    · exact (validateFrame_events u).trans (by rw [← hu])
  · rw [resetRun_of_no_preamble rfl]
    exact ⟨⟨rfl, rfl, rfl, rfl⟩, fun hc => absurd hc hn, fun _ _ => ⟨rfl, rfl, rfl⟩, fun _ hin => by omega⟩

/-! ### The guard with a budget of at least 63 bits -/

theorem verdict_ne_stale (c : Cfg) (f : Frame) : verdict c f ≠ .stale := by
  unfold verdict
  split <;> exact nofun

/-- Short of a whole frame at most 63 bits are counted, so the guard is silent. -/
theorem stale_not_mem_pulse {s : State} (h : StepInv s) (hb : 63 ≤ s.cfg.frameBitCount) (he : s.events = []) :
    .stale ∉ (pulse s).events := by
  have htot := h.total
  unfold pulse
  obtain ⟨-, hp⟩ | ⟨-, -, hp⟩ := pulseStep_cases s <;> rw [hp]
  · simp [he]
  obtain ⟨-, -, hbit⟩ | ⟨-, -, -, hbit⟩ | ⟨-, -, hbit⟩ | ⟨hn, hover, -⟩ :=
    bitIn_cases s (decide (s.cfg.minHighBit < s.hctr)) h.admitted
  · simp [hbit, he]
  · simp [hbit, he]
  · rw [hbit, validateFrame_events, he]
    exact fun hmem => verdict_ne_stale _ _ (List.mem_singleton.1 hmem).symm
  · omega

/-- Settles O49: of the operations a sample selects only `FALL` tests the guard. -/
theorem staleIsUnreachableWithTheDefaultBudget : Obligations.StaleIsUnreachableWithTheDefaultBudget := by
  intro s t h hb hst
  cases stepped_of_step hst with
  | rst | other => exact List.not_mem_nil
  | sample x rest i _ hsel =>
    have hv : StepInv (latch x (openStep s rest)) := (h.openStep rest).latch x
    cases hsel with
    | warm | high | holdPrev | holdCur => exact List.not_mem_nil
    | cal => exact fun hmem => nomatch List.mem_singleton.1 hmem
    | rise | low => exact (resetRun_events (latch x (openStep s rest))).symm ▸ List.not_mem_nil
    | fall => exact (resetRun_events _).symm ▸ stale_not_mem_pulse hv hb rfl

end Sys2Proof.Machine
end

section
/-! SUPPORT. The high-run counter along the samples of a run: in mode low it starts frames at falling edges only
(41_pulse_demodulator.md R123, R134), and it ends one below the run's length (R131). -/

namespace Sys2Proof.Machine

/-! ### Mode low -/

theorem lowModeInv_of_no_run {s : State} (hp : s.preamble = false) (hh : s.hctr = 0) : LowModeInv s :=
  ⟨fun h => (nomatch hp.symm.trans h), fun _ _ => hh⟩

theorem lowModeInv_of_highAt {s : State} (h : HighAt s s.prev) : LowModeInv s := ⟨fun _ => h, fun _ hn => absurd h hn⟩

theorem lowModeInv_resetRun (s : State) : LowModeInv (resetRun s) :=
  lowModeInv_of_no_run (resetRun_preamble s) (resetRun_hctr s)

/-- After a low sample no preamble is pending, so the reset of the run starts no frame. -/
theorem resetRun_active_of_lowAt {s : State} (hl : LowModeInv s) (hprev : LowAt s s.prev) :
    (resetRun s).active = s.active := by
  have hp : s.preamble = false := Bool.eq_false_of_not_eq_true fun hp => not_highAt_of_lowAt hprev (hl.1 hp)
  rw [resetRun_of_no_preamble hp]
  rfl

/-- What a sample does to the invariant of mode low and, unless it selects `FALL`, to `ACTIVE`. -/
theorem lowModeInv_effect {s : State} {i : Instr} (hm : s.cfg.centerEqMode = .low) (h : StepInv s) (hl : LowModeInv s)
    (hsel : Selects s i) :
    LowModeInv (effect i s) ∧
      (s.active = false → (effect i s).active = true → HighAt s s.prev ∧ LowAt s s.sample) := by
  have kept {a : Bool} (ha : a = s.active) : s.active = false → a = true → HighAt s s.prev ∧ LowAt s s.sample :=
    fun hoff hon => nomatch hon.symm.trans (ha.trans hoff)
  cases hsel with
  | warm hp =>
    obtain ⟨hh, hpre, -⟩ := h.idle hp
    exact ⟨lowModeInv_of_no_run hpre hh, kept rfl⟩
  | cal => exact ⟨lowModeInv_of_no_run rfl rfl, fun _ hon => nomatch hon⟩
  | rise _ hprev | low _ hprev => exact ⟨lowModeInv_resetRun s, kept (resetRun_active_of_lowAt hl hprev)⟩
  | high _ _ hcur => exact ⟨lowModeInv_of_highAt hcur, kept rfl⟩
  | fall _ hprev hcur => exact ⟨lowModeInv_resetRun _, fun _ _ => ⟨hprev, hcur⟩⟩
  | holdPrev _ hh hn | holdCur _ _ hh hn => exact absurd (highAt_or_lowAt_of_low hm _) (not_or.2 ⟨hh, hn⟩)

/-- Settles O25: the stimulus must present a sample, and that sample must select `FALL`. -/
theorem lowModeStartsFramesOnlyAtFall : Obligations.LowModeStartsFramesOnlyAtFall := by
  intro s t hm h hl hst
  cases stepped_of_step hst with
  | rst => exact ⟨lowModeInv_of_no_run rfl rfl, fun _ hon => nomatch hon⟩
  | other => exact ⟨hl, fun hoff hon => nomatch hon.symm.trans hoff⟩
  | sample x rest i hs hsel =>
    obtain ⟨hinv, hstart⟩ := lowModeInv_effect (s := latch x (openStep s rest)) hm ((h.openStep rest).latch x) hl hsel
    exact ⟨hinv, fun hoff hon => ⟨x, rest, hs, hstart hoff hon⟩⟩

/-! ### The length of a run -/

/-- `s` after `k` samples of a high run, the last one `x`: the counter stands at `h`, with `rest` still to come. -/
def ranHigh (rest : List Stim) (x : Sample) (k h : Nat) (s : State) : State :=
  { s with hctr := h, preamble := s.preamble || overPreamble s h, prev := x, sample := x, n := s.n + k, events := [],
           result := none, stim := rest }

/-- A threshold once exceeded stays exceeded as the run grows. -/
theorem overPreamble_or_of_le (s : State) {h h' : Nat} (hh : h ≤ h') :
    (overPreamble s h || overPreamble s h') = overPreamble s h' := by
  simp only [overPreamble, ← Bool.decide_or, decide_eq_decide]
  omega

theorem ranHigh_ranHigh (stim rest : List Stim) (x y : Sample) (k m : Nat) {h h' : Nat} (hh : h ≤ h') (s : State) :
    ranHigh rest y m h' (ranHigh stim x k h s) = ranHigh rest y (k + m) h' s := by
  have hpre : ((ranHigh stim x k h s).preamble || overPreamble (ranHigh stim x k h s) h') =
      (s.preamble || overPreamble s h') :=
    (Bool.or_assoc _ _ _).trans (congrArg _ (overPreamble_or_of_le s hh))
  have hn : (ranHigh stim x k h s).n + m = s.n + (k + m) := Nat.add_assoc _ _ _
  rw [ranHigh, hpre, hn]
  rfl

theorem ranHigh_of_no_preamble {s : State} (hp : s.preamble = false) (rest : List Stim) (x : Sample) (k h : Nat) :
    ranHigh rest x k h s =
      { s with hctr := h, preamble := decide (s.cfg.preambleCount < h), prev := x, n := s.n + k, sample := x,
               events := [], result := none, stim := rest } := by
  simp only [ranHigh, hp, Bool.false_or, overPreamble]

section
variable {s : State} {x : Sample} {rest : List Stim} (ha : s.cfg.Admitted) (hp : s.phase = .run)
  (hs : s.stim = present x :: rest)
include ha hp hs

theorem step_high (hprev : HighAt s s.prev) (hx : HighAt s x) : step s = .next (ranHigh rest x 1 (s.hctr + 1) s) :=
  step_of_selected ha hs (decodeClassWord_of_selects (.high hp hprev hx))

/-- The first sample of a run leaves the count at 0. -/
theorem step_rise (hpre : s.preamble = false) (hprev : LowAt s s.prev) (hx : HighAt s x) :
    step s = .next (ranHigh rest x 1 0 s) := by
  have hreset : resetRun (latch x (openStep s rest)) = endStep { latch x (openStep s rest) with hctr := 0 } :=
    resetRun_of_no_preamble hpre
  rw [step_of_selected ha hs (decodeClassWord_of_selects (.rise hp hprev hx)), effect, hreset]
  simp [ranHigh, endStep, latch, openStep, overPreamble, hpre]

end

/-- Every further sample of a high run adds one to the count. -/
theorem run_ranHigh {s : State} {x : Sample} {k h : Nat} {xs : List Sample} {rest : List Stim} (ha : s.cfg.Admitted)
    (hp : s.phase = .run) (hx : HighAt s x) (hxs : ∀ y ∈ xs, HighAt s y) :
    ∃ y, (x :: xs).getLast? = some y ∧
      Host.Core.run core xs.length (ranHigh (xs.map present ++ rest) x k h s) =
        .next (ranHigh rest y (k + xs.length) (h + xs.length) s) := by
  induction xs generalizing x k h with
  | nil => exact ⟨x, rfl, rfl⟩
  | cons y ys ih =>
    have hy := hxs y List.mem_cons_self
    obtain ⟨z, hlast, hrun⟩ := ih (k := k + 1) (h := h + 1) hy fun w hw => hxs w (List.mem_cons_of_mem y hw)
    have hstep : step (ranHigh ((y :: ys).map present ++ rest) x k h s) =
        .next (ranHigh (ys.map present ++ rest) y (k + 1) (h + 1) s) := by
      rw [← ranHigh_ranHigh ((y :: ys).map present ++ rest) _ x y k 1 (Nat.le_succ h)]
      exact step_high (s := ranHigh ((y :: ys).map present ++ rest) x k h s) ha hp rfl hx hy
    refine ⟨z, hlast, (run_succ _ hstep).trans (hrun.trans ?_)⟩
    simp only [List.length_cons, Nat.add_assoc, Nat.add_comm 1]

/-- Settles O26: `RISE` or `HIGH` takes the first sample, and `HIGH` each of the others. -/
theorem widthCountIsRunLengthMinusOne : Obligations.WidthCountIsRunLengthMinusOne := by
  intro s xs rest ha hp hpre hne hall hs
  obtain _ | ⟨x, xs⟩ := xs
  · exact absurd rfl hne
  have hx := hall x List.mem_cons_self
  have hxs : ∀ y ∈ xs, HighAt s y := fun y hy => hall y (List.mem_cons_of_mem x hy)
  refine ⟨fun hprev => ?_, fun hprev => ?_⟩
  · obtain ⟨y, hlast, hrun⟩ := run_ranHigh (k := 1) (h := 0) (rest := rest) ha hp hx hxs
    rw [Nat.add_comm 1, Nat.zero_add] at hrun
    exact ⟨_, (run_succ _ (step_rise ha hp hs hpre hprev hx)).trans hrun, ranHigh_of_no_preamble hpre rest y _ _, hlast⟩
  · obtain ⟨y, hlast, hrun⟩ := run_ranHigh (k := 1) (h := s.hctr + 1) (rest := rest) ha hp hx hxs
    rw [Nat.add_assoc, Nat.add_comm 1] at hrun
    exact ⟨_, (run_succ _ (step_high ha hp hs hprev hx)).trans hrun, ranHigh_of_no_preamble hpre rest y _ _, hlast⟩

end Sys2Proof.Machine
end

section
/-! SUPPORT. The two readings of a sample equal to `CENTER` (41_pulse_demodulator.md R120, conflict C1): the mode is read by
the class word only, and there only where a compared sample equals `CENTER`. -/

namespace Sys2Proof.Machine

/-! ### Operations under another mode -/

section
variable (m : EqMode) (s : State)

theorem resetRun_withMode : resetRun (withMode m s) = withMode m (resetRun s) := by
  obtain ⟨hp, h⟩ | ⟨hp, h⟩ := resetRun_cases s <;> rw [h]
  · exact resetRun_of_preamble (s := withMode m s) hp
  · exact resetRun_of_no_preamble (s := withMode m s) hp

theorem validateFrame_withMode : validateFrame (withMode m s) = withMode m (validateFrame s) := by
  simp only [validateFrame_eq]
  have hframe : (withMode m s).frame = s.frame := rfl
  rw [hframe]
  split <;> rfl

theorem closeByte_withMode : closeByte (withMode m s) = withMode m (closeByte s) := by
  cases hl : lastByteOfFrame s
  · rw [closeByte_of_not_last hl]
    exact closeByte_of_not_last (s := withMode m s) hl
  · rw [closeByte_of_last hl, ← validateFrame_withMode]
    exact closeByte_of_last (s := withMode m s) hl

theorem staleGuard_withMode : staleGuard (withMode m s) = withMode m (staleGuard s) := by
  have ho : overBudget (withMode m s) = overBudget s := rfl
  unfold staleGuard
  rw [ho]
  split <;> rfl

theorem bitIn_withMode (b : Bool) : bitIn b (withMode m s) = withMode m (bitIn b s) := by
  cases h8 : lastBitOfByte s
  · rw [bitIn_of_not_full b h8, ← staleGuard_withMode]
    exact bitIn_of_not_full (s := withMode m s) b h8
  · cases hl : lastByteOfFrame s
    · rw [bitIn_of_full b h8 hl, ← staleGuard_withMode, ← closeByte_withMode]
      exact bitIn_of_full (s := withMode m s) b h8 hl
    · rw [bitIn_of_complete b h8 hl, ← closeByte_withMode]
      exact bitIn_of_complete (s := withMode m s) b h8 hl

theorem pulse_withMode : pulse (withMode m s) = withMode m (pulse s) := by
  have hcode : pulseCode (withMode m s) = pulseCode s := rfl
  unfold pulse
  rw [hcode]
  cases decodePulseCode (pulseCode s) with
  | nobitInactive | nobitShort => rfl
  | bit0 | bit1 => exact bitIn_withMode m s _

end

theorem effect_withMode {s : State} {i : Instr} (hsel : Selects s i) (m : EqMode) :
    effect i (withMode m s) = withMode m (effect i s) := by
  cases hsel with
  | warm | cal | high | holdPrev | holdCur => rfl
  | rise | low => exact resetRun_withMode m s
  | fall => exact (congrArg resetRun (pulse_withMode m s)).trans (resetRun_withMode m _)

/-! ### The comparisons under another mode -/

/-- Away from `CENTER` the mode does not matter to what is low. -/
theorem lowAt_withMode {s : State} {v : Sample} (h : v ≠ s.center) (m : EqMode) : LowAt (withMode m s) v ↔ LowAt s v := by
  have hne : v.toInt ≠ s.center.toInt := fun he => h (BitVec.eq_of_toInt_eq he)
  have hc : (withMode m s).center = s.center := rfl
  simp [LowAt, hc, hne]

theorem Selects.withMode {s : State} {i : Instr} (h : Selects s i)
    (hoff : s.phase = .run → s.prev ≠ s.center ∧ s.sample ≠ s.center) (m : EqMode) : Selects (withMode m s) i := by
  have low_iff (hr : s.phase = .run) : (LowAt (Machine.withMode m s) s.prev ↔ LowAt s s.prev) ∧
      (LowAt (Machine.withMode m s) s.sample ↔ LowAt s s.sample) :=
    ⟨lowAt_withMode (hoff hr).1 m, lowAt_withMode (hoff hr).2 m⟩
  cases h with
  | warm hp hw => exact .warm hp hw
  | cal hp hw => exact .cal hp hw
  | rise hr hp hc => exact .rise hr ((low_iff hr).1.2 hp) hc
  | high hr hp hc => exact .high hr hp hc
  | fall hr hp hc => exact .fall hr hp ((low_iff hr).2.2 hc)
  | low hr hp hc => exact .low hr ((low_iff hr).1.2 hp) ((low_iff hr).2.2 hc)
  | holdPrev hr hh hl => exact .holdPrev hr hh fun h => hl ((low_iff hr).1.1 h)
  | holdCur hr hp hh hl => exact .holdCur hr (hp.imp id (low_iff hr).1.2) hh fun h => hl ((low_iff hr).2.1 h)

/-! ### The step under another mode -/

theorem pw2bLoop_withMode (c : Cfg) (m : EqMode) (count : Nat) (ws : List Nat) (x : Pw2bLocals) :
    pw2bLoop { c with centerEqMode := m } count ws x = pw2bLoop c count ws x := by
  induction ws generalizing x with
  | nil => rfl
  | cons w ws ih =>
    have hw : pw2bWidth { c with centerEqMode := m } w x = pw2bWidth c w x := rfl
    simp only [pw2bLoop, hw, ih]

/-- A step without a sample compares nothing with `CENTER`. -/
theorem step_withMode_of_noSample {s t : State} (m : EqMode) (hn : NoSample s) (h : step s = .next t) :
    step (withMode m s) = .next (withMode m t) := by
  obtain ⟨hrst, hsample⟩ := hn
  have ha := admitted_of_step h
  match hs : s.stim with
  | [] =>
    cases h.symm.trans (step_of_nothing ha hs)
    exact step_of_nothing (s := withMode m s) ha hs
  | .bytes l hb :: rest =>
    cases h.symm.trans (step_of_bytes ha hs)
    exact step_of_bytes (s := withMode m s) ha hs
  | .call widths count :: rest =>
    cases h.symm.trans (step_of_call ha hs)
    have hpw : pw2b (withMode m s).cfg widths count = pw2b s.cfg widths count :=
      congrArg Pw2bLocals.out (pw2bLoop_withMode s.cfg m count widths _)
    rw [step_of_call (s := withMode m s) ha hs, effect, openStep_cfg, hpw]
    rfl
  | .cycle ⟨true, v, x⟩ :: rest => exact absurd hs (hrst v x rest)
  | .cycle ⟨false, true, x⟩ :: rest => exact absurd hs (hsample x rest)
  | .cycle ⟨false, false, x⟩ :: rest =>
    cases h.symm.trans (step_of_idle ha hs)
    exact step_of_idle (s := withMode m s) ha hs

theorem step_withMode {s t : State} (m : EqMode) (h : step s = .next t)
    (hoff : s.phase = .run → s.prev ≠ s.center ∧ ∀ v x rest, s.stim = .cycle ⟨false, v, x⟩ :: rest → x ≠ s.center) :
    step (withMode m s) = .next (withMode m t) := by
  have ha := admitted_of_step h
  obtain ⟨v, x, rest, hs⟩ | ⟨x, rest, hs⟩ | hn := stim_cases s
  · cases h.symm.trans (step_of_rst ha hs)
    exact step_of_rst (s := withMode m s) ha hs
  · obtain ⟨i, hd, hsel⟩ := decodeClassWord_classWord (latch x (openStep s rest))
    cases h.symm.trans (step_of_selected ha hs hd)
    have hsel' : Selects (latch x (openStep (withMode m s) rest)) i :=
      hsel.withMode (fun hr => ⟨(hoff hr).1, (hoff hr).2 true x rest hs⟩) m
    rw [step_of_selected (s := withMode m s) ha hs (decodeClassWord_of_selects hsel')]
    exact congrArg _ (effect_withMode hsel m)
  · exact step_withMode_of_noSample m hn h

/-- Settles O53: mode strict is one of the modes that the step in mode low can be compared with. -/
theorem modesAgreeOffCenter : Obligations.ModesAgreeOffCenter :=
  fun s _ hoff h => step_withMode (s := withMode .low s) .strict h hoff

end Sys2Proof.Machine
end

section
/-! SUPPORT. A constant stream (41_pulse_demodulator.md R138): `CENTER` becomes its value, and from then on no sample is high. -/

namespace Sys2Proof.Machine

/-- The block runs with `CENTER` at the value of a constant stream, and no pulse is open. -/
structure Level (x : Sample) (s : State) : Prop where
  admitted : s.cfg.Admitted
  phase : s.phase = .run
  center : s.center = x
  prev : s.prev = x
  hctr : s.hctr = 0
  preamble : s.preamble = false
  active : s.active = false

/-- One more sample of the constant stream selects `LOW` in mode low and `HOLD` in mode strict; neither finds a preamble. -/
theorem step_of_level {s : State} {x : Sample} {rest : List Stim} (h : Level x s) (hs : s.stim = present x :: rest) :
    step s = .next (endStep { latch x (openStep s rest) with hctr := 0 }) := by
  have hprev : s.prev.toInt = s.center.toInt := by rw [h.prev, h.center]
  have hcur : x.toInt = s.center.toInt := by rw [h.center]
  cases hm : s.cfg.centerEqMode with
  | low =>
    have hsel : Selects (latch x (openStep s rest)) .low := .low h.phase (.inr ⟨hm, hprev⟩) (.inr ⟨hm, hcur⟩)
    rw [step_of_selected h.admitted hs (decodeClassWord_of_selects hsel)]
    exact congrArg _ (resetRun_of_no_preamble h.preamble)
  | strict =>
    have hsel : Selects (latch x (openStep s rest)) .holdPrev :=
      .holdPrev h.phase hprev.not_gt fun hl => hl.elim hprev.not_lt fun hl => nomatch hm.symm.trans hl.1
    rw [step_of_selected h.admitted hs (decodeClassWord_of_selects hsel), ← h.hctr]
    rfl

theorem run_level {s : State} {x : Sample} {rest : List Stim} (k : Nat) (h : Level x s)
    (hs : s.stim = List.replicate k (present x) ++ rest) :
    ∃ t, Host.Core.run core k s = .next t ∧ Level x t ∧ t.events = if k = 0 then s.events else [] := by
  induction k generalizing s with
  | zero => exact ⟨s, run_zero s, h, rfl⟩
  | succ k ih =>
    have hstep := step_of_level (rest := List.replicate k (present x) ++ rest) h hs
    obtain ⟨t, hrun, ht, hev⟩ := ih
      (s := endStep { latch x (openStep s (List.replicate k (present x) ++ rest)) with hctr := 0 })
      ⟨h.admitted, h.phase, h.center, rfl, rfl, h.preamble, h.active⟩ rfl
    exact ⟨t, (run_succ k hstep).trans hrun, ht, by simpa using hev⟩

/-- A step out of a warm-up is `CAL` (60_exceptions.md R191). -/
theorem cal_of_step_to_run {s t : State} (h : step s = .next t) (hw : s.phase = .warmup) (hr : t.phase = .run) :
    ∃ x rest, s.stim = present x :: rest ∧ t = effect .cal (latch x (openStep s rest)) := by
  cases stepped_of_step h with
  | rst => exact nomatch hr
  | other => exact nomatch hw.symm.trans hr
  | sample x rest i hs hsel =>
    cases hsel with
    | cal => exact ⟨x, rest, hs, rfl⟩
    | warm => exact nomatch hw.symm.trans hr
    | rise hp | high hp | fall hp | low hp | holdPrev hp | holdCur hp => exact nomatch hw.symm.trans hp

/-- The floor of the mean of equal samples is their value. -/
theorem eq_of_floor_of_replicate {k : Nat} {c x : Int} (hk : 1 ≤ k) (hle : k * c ≤ k * x) (hlt : k * x < k * (c + 1)) :
    c = x := by
  have hk0 : (0 : Int) < k := by omega
  have := le_of_mul_le_mul_left hle hk0
  have := lt_of_mul_lt_mul_left hlt hk0.le
  omega

/-- A constant warm-up ends on the level of the stream, with `READY` of its value. -/
theorem run_warmup_replicate {s : State} {x : Sample} {rest : List Stim} (ha : s.cfg.Admitted) (hstart : WarmStart s)
    (hs : s.stim = List.replicate s.cfg.centerSamples (present x) ++ rest) :
    ∃ t, Host.Core.run core s.cfg.centerSamples s = .next t ∧ Level x t ∧ t.stim = rest ∧ t.events = [.ready x] := by
  have hk := ((admitted_iff s.cfg).1 ha).1
  obtain ⟨j, hj⟩ : ∃ j, s.cfg.centerSamples = j + 1 := ⟨s.cfg.centerSamples - 1, by omega⟩
  have hlen : (List.replicate j x).length + 1 = s.cfg.centerSamples := by rw [List.length_replicate, hj]
  obtain ⟨u, hrun, hu⟩ := run_summed (xs := List.replicate j x) (rest := present x :: rest) ha hstart.1
    (by rw [hstart.2.1]; omega) (by rw [hs, hj, List.replicate_succ']; simp)
  obtain ⟨t, hstep, hrunning, hstim, -, hev, -, -, hle, hlt⟩ := step_of_summed ha hstart hlen hu
  rw [← List.replicate_succ', ← hj, List.map_replicate, List.sum_replicate, nsmul_eq_mul] at hle hlt
  have hc : t.center = x := BitVec.eq_of_toInt_eq (eq_of_floor_of_replicate hk hle hlt)
  rw [List.length_replicate] at hrun
  have hcfg : t.cfg.Admitted := by rw [step_cfg hstep, hu.cfg]; exact ha
  obtain ⟨y, rest', hus, rfl⟩ := cal_of_step_to_run hstep hu.phase hrunning
  cases hu.stim.symm.trans hus
  rw [hc] at hev
  exact ⟨_, by rw [hj]; exact (run_add j 1 hrun).trans (run_succ 0 hstep),
    ⟨hcfg, hrunning, hc, rfl, rfl, rfl, rfl⟩, hstim, hev⟩

/-- Settles O54: the warm-up ends on the level of the stream, and no sample of the stream leaves it. -/
theorem constantStreamNeverEmitsAFrame : Obligations.ConstantStreamNeverEmitsAFrame := by
  intro s x k rest ha hstart hs
  rw [List.replicate_add, List.append_assoc] at hs
  obtain ⟨u, hwarm, hu, hstim, hready⟩ := run_warmup_replicate ha hstart hs
  obtain ⟨t, hrun, ht, hev⟩ := run_level k hu hstim
  rw [hready] at hev
  exact ⟨t, (run_add _ k hwarm).trans hrun, ht.phase, ht.center, ht.hctr, ht.preamble, ht.active, hev⟩

end Sys2Proof.Machine
end

section
/-! SUPPORT. The fields of a frame and the watts they stand for (42_frame_validator.md R160 to R165). -/

namespace Sys2Proof.Machine

/-! ### The fields -/

theorem checksumOk_iff_byteSum (f : Frame) : checksumOk f = true ↔ byteSum f % 256 = f[7].toNat := by
  rw [checksumOk_iff, ← BitVec.toNat_inj, checksumOf_toNat_byteSum]

theorem exponentOf_eq (f : Frame) :
    exponentOf f = if f[6].toNat ≤ 127 then (f[6].toNat : Int) else (f[6].toNat : Int) - 256 := by
  rw [exponentOf, BitVec.toInt_eq_toNat_cond]
  split_ifs <;> omega

theorem exponentOf_bounds (f : Frame) : -128 ≤ exponentOf f ∧ exponentOf f ≤ 127 :=
  ⟨BitVec.le_toInt f[6], Int.le_of_lt_add_one BitVec.toInt_lt⟩

/-- Settles O33: the two verdicts, by the checksum. -/
theorem validateReportsEachFrameOnce : Obligations.ValidateReportsEachFrameOnce := by
  intro s ha
  rw [exec_of_admitted ha .validate]
  refine ⟨fun hok => congrArg _ (validateFrame_of_ok ((checksumOk_iff_byteSum _).2 hok)), fun hne => ?_⟩
  have hbad : checksumOk s.frame = false := Bool.eq_false_of_not_eq_true (mt (checksumOk_iff_byteSum _).1 hne)
  exact ⟨checksumOf s.frame, checksumOf_toNat_byteSum s.frame, congrArg _ (validateFrame_of_not_ok hbad)⟩

/-- Settles O34: the fields `readingOf` takes from the frame. -/
theorem decodeReadsTheFrameFields : Obligations.DecodeReadsTheFrameFields := by
  intro s ha
  obtain ⟨hlow, hhigh⟩ := exponentOf_bounds s.frame
  have he := exponentOf_eq s.frame
  exact ⟨adcOf s.frame, exponentOf s.frame, exec_of_admitted ha .decode, rfl, Nat.le_of_lt_succ (adcOf_lt s.frame),
    fun h => by rw [he, if_pos h], fun h => by rw [he, if_neg (Nat.not_le.2 h)], hlow, hhigh, by omega, by omega⟩

/-! ### The watts -/

theorem divisor_eq_zpow (e : Int) : divisor e = (2 : ℚ) ^ (15 - e) := by
  rw [divisor, zpow_sub₀ two_ne_zero]
  norm_num

theorem divisor_pos (e : Int) : 0 < divisor e := by
  rw [divisor_eq_zpow]
  positivity

theorem divisor_bounds {e : Int} (hlow : -128 ≤ e) (hhigh : e ≤ 127) :
    (2 : ℚ) ^ (-112 : Int) ≤ divisor e ∧ divisor e ≤ (2 : ℚ) ^ (143 : Int) := by
  rw [divisor_eq_zpow]
  exact ⟨zpow_le_zpow_right₀ one_le_two (by omega), zpow_le_zpow_right₀ one_le_two (by omega)⟩

theorem watts_eq_zpow (vref adc : Nat) (e : Int) : watts vref adc e = vref * adc * (2 : ℚ) ^ (e - 15) := by
  rw [watts, divisor_eq_zpow, div_eq_mul_inv, ← zpow_neg, neg_sub]

/-- The pair of R165 is exact. -/
theorem pairValue_eq_watts (vref adc : Nat) (e : Int) : pairValue (vref * adc) (e - 15) = watts vref adc e := by
  rw [pairValue, watts_eq_zpow, Nat.cast_mul]

theorem watts_nonneg (vref adc : Nat) (e : Int) : 0 ≤ watts vref adc e := by
  rw [watts_eq_zpow]
  positivity

theorem watts_eq_zero_iff (vref adc : Nat) (e : Int) : watts vref adc e = 0 ↔ adc = 0 ∨ vref = 0 := by
  have hpow : (2 : ℚ) ^ (e - 15) ≠ 0 := zpow_ne_zero _ two_ne_zero
  simp [watts_eq_zpow, hpow, or_comm]

theorem pairValue_lt {m k n : Nat} {x : Int} (hm : m < 2 ^ k) (hx : x ≤ n) : pairValue m x < (2 : ℚ) ^ (n + k) := by
  have hm : (m : ℚ) < 2 ^ k := by exact_mod_cast hm
  have hx : (2 : ℚ) ^ x ≤ 2 ^ n := (zpow_le_zpow_right₀ one_le_two hx).trans_eq (zpow_natCast 2 n)
  calc (m : ℚ) * 2 ^ x ≤ m * 2 ^ n := by gcongr
    _ < 2 ^ k * 2 ^ n := by gcongr
    _ = 2 ^ (n + k) := by rw [pow_add, mul_comm]

theorem pairValue_eq_zero_or_le (m : Nat) {x y : Int} (hx : y ≤ x) :
    pairValue m x = 0 ∨ (2 : ℚ) ^ y ≤ pairValue m x := by
  rcases Nat.eq_zero_or_pos m with rfl | hm
  · exact .inl (by simp [pairValue])
  · have hm : (1 : ℚ) ≤ m := by exact_mod_cast hm
    have hx : (2 : ℚ) ^ y ≤ 2 ^ x := zpow_le_zpow_right₀ one_le_two hx
    exact .inr (hx.trans (le_mul_of_one_le_left (by positivity) hm))

/-! ### What every `READING` carries -/

theorem readingExact_of_frame (vref : Nat) (f : Frame) :
    ReadingExact vref f (adcOf f) (exponentOf f) (vref * adcOf f) (exponentOf f - 15) := by
  obtain ⟨hlow, hhigh⟩ := exponentOf_bounds f
  have hexact := pairValue_eq_watts vref (adcOf f) (exponentOf f)
  have hfits := mantissa_lt vref f
  have hx : exponentOf f - 15 ≤ (112 : Nat) := by omega
  exact {
    current := rfl
    exponent := exponentOf_eq f
    mantissa := rfl
    scale := rfl
    exact := hexact
    mantissaFits := hfits
    scaleLow := by omega
    scaleHigh := hx
    bounded := by rw [← hexact, add_assoc]; exact pairValue_lt hfits hx
    notBelow := by rw [← hexact]; exact pairValue_eq_zero_or_le _ (by omega) }

/-- A `VREF` below `2^37` leaves the mantissa in the 53 bits of an IEEE double (R165). -/
theorem mantissa_lt_double {vref : Nat} (h : vref < 2 ^ 37) (f : Frame) : vref * adcOf f < 2 ^ 53 :=
  calc vref * adcOf f < 2 ^ 37 * 2 ^ 16 := Nat.mul_lt_mul'' h (adcOf_lt f)
    _ = 2 ^ 53 := by norm_num

/-- A `READING` that a step emits is the one of its frame. -/
theorem readingOf_of_mem_step {s t : State} {f : Frame} {adc : Nat} {e : Int} {wMant : Nat} {wExp : Int}
    (h : step s = .next t) (hmem : .reading f adc e wMant wExp ∈ t.events) :
    .reading f adc e wMant wExp = readingOf s.cfg f := by
  by_cases hr : ∃ v x rest, s.stim = .cycle ⟨true, v, x⟩ :: rest
  · obtain ⟨v, x, rest, hs⟩ := hr
    cases h.symm.trans (step_of_rst (admitted_of_step h) hs)
    exact nomatch hmem
  · cases step_report h fun v x rest hs => hr ⟨v, x, rest, hs⟩ with
    | quiet _ _ he => simp [he] at hmem
    | ready _ _ _ _ he | mismatch _ _ _ _ he | stale _ _ _ he => simp [he] at hmem
    | reading f' _ _ _ he =>
      have heq : .reading f adc e wMant wExp = readingOf s.cfg f' := List.mem_singleton.1 (he ▸ hmem)
      cases heq
      rfl

/-- Settles O35: `DECODE` and the step emit only readings of a frame, whose pair is exact. -/
theorem readingPairIsTheExactWatts : Obligations.ReadingPairIsTheExactWatts := by
  refine ⟨fun s ha => ?_, fun s t f adc e wMant wExp h hmem => ?_, fun vref adc e => ?_⟩
  · exact ⟨_, _, _, _, exec_of_admitted ha .decode, readingExact_of_frame _ _, fun h => mantissa_lt_double h _⟩
  · cases readingOf_of_mem_step h hmem
    exact readingExact_of_frame _ _
  · exact ⟨rfl, rfl, watts_eq_zpow .., pairValue_eq_watts .., divisor_eq_zpow e, divisor_pos e, divisor_bounds,
      watts_nonneg .., watts_eq_zero_iff ..⟩

end Sys2Proof.Machine
end

section
/-! SUPPORT. `PW2B` (43_pulse_to_bytes.md R180, R181): one width, the bits of a width list packed into bytes, and the
inverse of the encoding of R181. -/

namespace Sys2Proof.Machine

/-! ### Bits and bytes -/

/-- Eight bits shifted in make the byte they are written in, the first one bit 7 (30_encoding.md R79 (b)). -/
theorem byteOfBits_eq_foldl (b7 b6 b5 b4 b3 b2 b1 b0 : Bool) :
    byteOfBits b7 b6 b5 b4 b3 b2 b1 b0 = [b7, b6, b5, b4, b3, b2, b1, b0].foldl shiftIn 0 := by
  revert b7 b6 b5 b4 b3 b2 b1 b0; decide

/-- Fewer than eight bits are left over (92_eei_decisions.md D20). -/
theorem packBits_of_short {p : List Bool} (h : p.length < 8) : packBits p = [] := by
  match p with
  | [] | [_] | [_, _] | [_, _, _] | [_, _, _, _] | [_, _, _, _, _] | [_, _, _, _, _, _] | [_, _, _, _, _, _, _] => rfl
  | _ :: _ :: _ :: _ :: _ :: _ :: _ :: _ :: _ => simp only [List.length_cons] at h; omega

theorem packBits_append_of_byte {p : List Bool} (h : p.length = 8) (rest : List Bool) :
    packBits (p ++ rest) = p.foldl shiftIn 0 :: packBits rest := by
  match p, h with
  | [_, _, _, _, _, _, _, _], _ => exact congrArg (· :: packBits rest) (byteOfBits_eq_foldl ..)

/-! ### One width -/

section
variable {c : Cfg} {w : Nat}

theorem bitsOfWidths_cons_of_le (h : w ≤ c.minLowBit) (ws : List Nat) : bitsOfWidths c (w :: ws) = bitsOfWidths c ws := by
  simp [bitsOfWidths, Nat.not_lt.2 h]

theorem bitsOfWidths_cons_of_lt (h : c.minLowBit < w) (ws : List Nat) :
    bitsOfWidths c (w :: ws) = decide (c.minHighBit < w) :: bitsOfWidths c ws := by
  simp [bitsOfWidths, h]

theorem pw2bWidth_of_le (h : w ≤ c.minLowBit) (x : Pw2bLocals) : pw2bWidth c w x = x := if_neg (Nat.not_lt.2 h)

theorem pw2bWidth_of_bit (h : c.minLowBit < w) {x : Pw2bLocals} (hn : x.nb < 7) :
    pw2bWidth c w x = ⟨x.out, shiftIn x.cur (decide (c.minHighBit < w)), x.nb + 1⟩ := by
  simp only [pw2bWidth, if_pos h, if_neg (show ¬ x.nb + 1 = 8 by omega)]

theorem pw2bWidth_of_byte (h : c.minLowBit < w) {x : Pw2bLocals} (hn : x.nb = 7) :
    pw2bWidth c w x = ⟨x.out ++ [shiftIn x.cur (decide (c.minHighBit < w))], 0, 0⟩ := by
  simp only [pw2bWidth, if_pos h, if_pos (show x.nb + 1 = 8 by omega)]

end

/-! ### A width list -/

/-- The locals of `PW2B` with the bytes `out` closed and the bits `p` pending. -/
def pendingBits (out : List Byte) (p : List Bool) : Pw2bLocals := ⟨out, p.foldl shiftIn 0, p.length⟩

theorem pw2bWidth_pendingBits_of_bit {c : Cfg} {w : Nat} (h : c.minLowBit < w) (out : List Byte) {p : List Bool}
    (hp : p.length < 7) :
    pw2bWidth c w (pendingBits out p) = pendingBits out (p ++ [decide (c.minHighBit < w)]) := by
  rw [pw2bWidth_of_bit h hp]
  simp [pendingBits]

theorem pw2bWidth_pendingBits_of_byte {c : Cfg} {w : Nat} (h : c.minLowBit < w) (out : List Byte) {p : List Bool}
    (hp : p.length = 7) :
    pw2bWidth c w (pendingBits out p) =
      pendingBits (out ++ [(p ++ [decide (c.minHighBit < w)]).foldl shiftIn 0]) [] := by
  rw [pw2bWidth_of_byte h hp, List.foldl_concat]
  rfl

/-- The loop from any point of it: the pending bits come before those of the widths still to be read. -/
theorem pw2bLoop_out (c : Cfg) (count : Nat) (ws : List Nat) (out : List Byte) (p : List Bool) (hp : p.length < 8)
    (hout : out.length ≤ count) :
    (pw2bLoop c count ws (pendingBits out p)).out = (out ++ packBits (p ++ bitsOfWidths c ws)).take count := by
  induction ws generalizing out p with
  | nil =>
    have hnone : packBits (p ++ bitsOfWidths c []) = [] := packBits_of_short (by simpa [bitsOfWidths] using hp)
    rw [hnone, List.append_nil, List.take_of_length_le hout]
    rfl
  | cons w ws ih =>
    by_cases hfull : out.length = count
    · rw [pw2bLoop, if_pos (by exact hfull), ← hfull, List.take_left]
      rfl
    rw [pw2bLoop, if_neg (by exact hfull)]
    obtain hw | hw := le_or_gt w c.minLowBit
    · rw [pw2bWidth_of_le hw, bitsOfWidths_cons_of_le hw, ih out p hp hout]
    rw [bitsOfWidths_cons_of_lt hw, List.append_cons]
    obtain hbit | hbyte : p.length < 7 ∨ p.length = 7 := by omega
    · rw [pw2bWidth_pendingBits_of_bit hw out hbit, ih out _ (by simp; omega) hout]
    · rw [pw2bWidth_pendingBits_of_byte hw out hbyte, packBits_append_of_byte (by simp [hbyte]), ih _ [] (by simp)]
      · rw [List.append_assoc]; rfl
      · simp only [List.length_append, List.length_singleton]; omega

/-- `PW2B` is its widths' bits in whole bytes, up to the number wanted (R180). -/
theorem pw2b_eq_packBits (c : Cfg) (widths : List Nat) (count : Nat) :
    pw2b c widths count = (packBits (bitsOfWidths c widths)).take count :=
  pw2bLoop_out c count widths [] [] (by decide) (Nat.zero_le count)

/-- Settles O37: the effect of `PW2B`, with the loop read as bits packed; the field of the result is the model's choice (log
entry 18). -/
theorem pw2bPacksTheBitsOfItsWidths : Obligations.Pw2bPacksTheBitsOfItsWidths := fun s widths count ha =>
  (exec_of_admitted ha (.pw2b widths count)).trans (by rw [effect, pw2b_eq_packBits])

/-! ### The encoding of a byte list -/

/-- The bits of a byte in the order of R181, bit 7 first. -/
def bitsOfByte (b : Byte) : List Bool := [b[7], b[6], b[5], b[4], b[3], b[2], b[1], b[0]]

theorem foldl_shiftIn_bitsOfByte (b : Byte) : (bitsOfByte b).foldl shiftIn 0 = b := by
  revert b; decide

theorem packBits_flatMap_bitsOfByte (bs : List Byte) : packBits (bs.flatMap bitsOfByte) = bs := by
  induction bs with
  | nil => rfl
  | cons b bs ih =>
    rw [List.flatMap_cons, packBits_append_of_byte rfl, foldl_shiftIn_bitsOfByte, ih]

/-- With the thresholds apart, each width of R181 lies on its bit's side of `MINHIGHBIT`. -/
theorem map_widthsOfByte {c : Cfg} (hc : c.minLowBit < c.minHighBit) (b : Byte) :
    ((widthsOfByte c b).map fun w => decide (c.minHighBit < w)) = bitsOfByte b := by
  have hbit (x : Bool) : decide (c.minHighBit < if x then c.minHighBit + 1 else c.minLowBit + 1) = x := by
    cases x
    · exact decide_eq_false (by simp; omega)
    · exact decide_eq_true (by simp)
  simp only [widthsOfByte, List.map_cons, List.map_nil, hbit, bitsOfByte]

theorem map_widthsOfBytes {c : Cfg} (hc : c.minLowBit < c.minHighBit) (bs : List Byte) :
    ((widthsOfBytes c bs).map fun w => decide (c.minHighBit < w)) = bs.flatMap bitsOfByte := by
  simp only [widthsOfBytes, List.map_flatMap, map_widthsOfByte hc]

/-- Settles O38: the widths above `MINLOWBIT` give back the bits of the bytes, and packing gives back the bytes. -/
theorem pw2bInvertsTheEncoding : Obligations.Pw2bInvertsTheEncoding := by
  intro c bs widths count hc hlen hw
  calc pw2b c widths count
      = (packBits (bitsOfWidths c widths)).take count := pw2b_eq_packBits c widths count
    _ = (packBits (bs.flatMap bitsOfByte)).take count := by
        rw [bitsOfWidths, hw, map_widthsOfBytes hc]
    _ = bs := by rw [packBits_flatMap_bitsOfByte, List.take_of_length_le hlen]

end Sys2Proof.Machine
end

section
/-! SUPPORT. `PW2B` fed one width at a time is the streaming demodulator (43_pulse_to_bytes.md R182): a falling edge gives its
width count to a frame in which the other edges change nothing. -/

namespace Sys2Proof.Machine

/-! ### One more width -/

theorem pw2bLoop_concat {c : Cfg} {count : Nat} (ws : List Nat) (w : Nat) {x : Pw2bLocals}
    (h : (pw2bLoop c count ws x).out.length ≠ count) :
    pw2bLoop c count (ws ++ [w]) x = pw2bWidth c w (pw2bLoop c count ws x) := by
  induction ws generalizing x with
  | nil => exact if_neg h
  | cons v ws ih =>
    rw [pw2bLoop] at h ⊢
    split at h
    · next hfull => exact absurd hfull h
    · next hopen => rw [List.cons_append, pw2bLoop, if_neg hopen, if_neg hopen, ih h]

/-- A frame that is not whole leaves `PW2B` short of its eight bytes, so it reads the next width. -/
theorem Tracks.concat {s : State} {widths : List Nat} (h : Tracks s widths) (w : Nat) :
    pw2bLoop s.cfg 8 (widths ++ [w]) ⟨[], 0, 0⟩ =
      pw2bWidth s.cfg w ⟨s.frame.toList.take s.byteCnt.val, s.curByte, s.bitPos.val⟩ := by
  have hout : (pw2bLoop s.cfg 8 widths ⟨[], 0, 0⟩).out.length ≠ 8 := by
    rw [h, List.length_take]
    omega
  rw [pw2bLoop_concat widths w hout, h]

theorem Frame.take_set (f : Frame) (k : Fin 8) (b : Byte) :
    (f.set k.val b k.isLt).toList.take (k.val + 1) = f.toList.take k.val ++ [b] := by
  rw [Vector.toList_set, List.take_add_one, List.take_set_of_le le_rfl, List.getElem?_set_self (by simp)]
  rfl

/-! ### A falling edge -/

theorem validateFrame_frame (s : State) : (validateFrame s).frame = s.frame := by
  rw [validateFrame_eq]
  split <;> rfl

/-- A falling edge sets no preamble. -/
theorem PulseOutcome.preamble {s u : State} (h : PulseOutcome s u) (hpre : s.preamble = false) : u.preamble = false := by
  cases h with
  | ignored | shifted | closed => exact hpre
  | reading | mismatch | stale => rfl

/-- The pulse of a falling edge goes into the open frame as `PW2B` takes its width, and completes the frame with the
eighth byte; the guard is silent within its budget. -/
theorem pulse_tracks {s : State} {widths : List Nat} (h : StepInv s) (hact : s.active = true)
    (hb : 63 ≤ s.cfg.frameBitCount) (ht : Tracks s widths) :
    ((pulse s).active = true ∧ Tracks (pulse s) (widths ++ [s.hctr]) ∧ (pulse s).events = s.events) ∨
      ((pulse s).active = false ∧ pw2b s.cfg (widths ++ [s.hctr]) 8 = (pulse s).frame.toList ∧
        (pulse s).events = s.events ++ [verdict s.cfg (pulse s).frame]) := by
  have hfed := ht.concat s.hctr
  have htot := h.total
  unfold pulse
  obtain ⟨hn | hshort, hp⟩ | ⟨-, hlong, hp⟩ := pulseStep_cases s
  · exact nomatch hact.symm.trans hn
  · rw [hp]
    exact .inl ⟨hact, hfed.trans (pw2bWidth_of_le hshort _), rfl⟩
  rw [hp]
  obtain ⟨hpos, -, hbit⟩ | ⟨hpos, hcnt, -, hbit⟩ | ⟨hpos, hcnt, hbit⟩ | ⟨hn, hover, -⟩ :=
    bitIn_cases s (decide (s.cfg.minHighBit < s.hctr)) h.admitted
  · rw [hbit]
    refine .inl ⟨hact, hfed.trans ?_, rfl⟩
    rw [pw2bWidth_of_bit hlong hpos, Fin8.val_succ_of_lt hpos]
  · rw [hbit]
    refine .inl ⟨hact, hfed.trans ?_, rfl⟩
    rw [pw2bWidth_of_byte hlong hpos, Fin8.val_succ_of_lt hcnt, Frame.take_set]
    rfl
  · rw [hbit, validateFrame_events, validateFrame_frame]
    refine .inr ⟨(validateFrame_cleared _).2.1, ?_, rfl⟩
    rw [pw2b, hfed, pw2bWidth_of_byte hlong hpos, ← Frame.take_set]
    exact List.take_of_length_le (by simp [hcnt])
  · omega

/-- Settles O40: the reset of the run after the pulse touches neither the frame nor its bits. -/
theorem demodulatorIsPw2bOneWidthAtATime : Obligations.DemodulatorIsPw2bOneWidthAtATime := by
  intro s widths h hact hpre hb ht
  refine ⟨resetRun (pulse s), exec_of_admitted h.admitted .fall, ?_⟩
  rw [resetRun_of_no_preamble ((pulse_outcome h.admitted).preamble hpre)]
  obtain hopen | ⟨hclosed, hframe, hevents⟩ := pulse_tracks h hact hb ht
  · exact .inl hopen
  · exact .inr ⟨hclosed, _, hframe, rfl, hevents⟩

/-! ### The other edges -/

/-- Without a pending preamble the reset of the run leaves the open frame and its bits. -/
theorem resetRun_keeps_tracks {s : State} (hp : s.preamble = false) :
    (resetRun s).active = s.active ∧ ∀ widths, Tracks s widths → Tracks (resetRun s) widths := by
  rw [resetRun_of_no_preamble hp]
  exact ⟨rfl, fun _ ht => ht⟩

/-- The frame that PRE2ACT creates has received no width (R134). -/
theorem resetRun_starts_tracks {s : State} (hp : s.preamble = true) :
    (resetRun s).active = true ∧ Tracks (resetRun s) [] := by
  rw [resetRun_of_preamble hp]
  exact ⟨rfl, rfl⟩

/-- Settles O41: `RISE` and `LOW` reset the run, whose PRE2ACT test alone reaches the frame; `HIGH` and `HOLD` do not. -/
theorem otherEdgesKeepTheFrame : Obligations.OtherEdgesKeepTheFrame := by
  intro s i ha hi
  refine ⟨effect i s, exec_of_admitted ha i, ?_⟩
  obtain rfl | rfl | rfl | rfl | rfl := hi
  case inl | inr.inr.inl =>
    exact ⟨resetRun_frame s, resetRun_events s, fun hc => resetRun_keeps_tracks (by simpa using hc),
      fun hc => resetRun_starts_tracks hc.1⟩
  case inr.inl | inr.inr.inr.inl | inr.inr.inr.inr =>
    exact ⟨rfl, rfl, fun _ => ⟨rfl, fun _ ht => ht⟩, fun hc => by simp at hc⟩

end Sys2Proof.Machine
end

section
/-! SUPPORT. How many events a step emits and in which phase each occurs, and the entry into recalibration
(60_exceptions.md R190, R196, R199). -/

namespace Sys2Proof.Machine

/-! ### The events of one step -/

/-- `rst` emits nothing; every other step has a report. -/
theorem events_nil_or_report_of_step {s t : State} (h : step s = .next t) : t.events = [] ∨ Report s t := by
  by_cases hr : ∃ v x rest, s.stim = .cycle ⟨true, v, x⟩ :: rest
  · obtain ⟨v, x, rest, hs⟩ := hr
    cases h.symm.trans (step_of_rst (admitted_of_step h) hs)
    exact .inl rfl
  · exact .inr (step_report h fun v x rest hs => hr ⟨v, x, rest, hs⟩)

/-- A report names no event, or one, which is a `READY` exactly in `WARMUP` (R199). -/
theorem Report.events_nil_or_singleton {s t : State} (h : Report s t) :
    t.events = [] ∨ ∃ e, t.events = [e] ∧ (s.phase = .warmup ↔ ∃ c, e = .ready c) := by
  cases h with
  | quiet _ _ he => exact .inl he
  | ready c hs _ _ he => exact .inr ⟨_, he, by simp [hs]⟩
  | reading f hs _ _ he => exact .inr ⟨_, he, by simp [hs, readingOf]⟩
  | mismatch f hs _ _ he => exact .inr ⟨_, he, by simp [hs]⟩
  | stale hs _ _ he => exact .inr ⟨_, he, by simp [hs]⟩

/-- Settles O46: a step starts with an empty event list, and its report adds at most one event, of its phase. -/
theorem stepEmitsAtMostOneEvent : Obligations.StepEmitsAtMostOneEvent := by
  intro s t h
  have hev : t.events = [] ∨ ∃ e, t.events = [e] ∧ (s.phase = .warmup ↔ ∃ c, e = .ready c) :=
    (events_nil_or_report_of_step h).elim .inl Report.events_nil_or_singleton
  obtain he | ⟨e, he, hphase⟩ := hev
  · simp [he]
  · simpa [he] using hphase

/-! ### The entry into recalibration -/

/-- Settles O36: the effect of `RECAL` is `recalibrate`, which writes `PHASE`, `WCNT` and `SUM` only (R196). -/
theorem recalReturnsToWarmup : Obligations.RecalReturnsToWarmup := fun _ ha => exec_of_admitted ha .recal

end Sys2Proof.Machine
end

section
/-! SUPPORT. What `rst` leaves and what the first sample after it selects (70_reset_and_hazards.md R220, R221). -/

namespace Sys2Proof.Machine

/-- Settles O10: a cycle with `rst` ends in `resetBlock`, whatever its other ports carry; the frame is written out byte by
byte. -/
theorem resetReplacesTheState : Obligations.ResetReplacesTheState := by
  intro s v x rest ha hs
  have hframe : (Vector.replicate 8 0 : Frame) = #v[0, 0, 0, 0, 0, 0, 0, 0] := rfl
  rw [step_of_rst ha hs, ← hframe]
  rfl

/-- The frame of the reset state holds only zero bytes (R220). -/
theorem reset_frame_getElem (i : Fin 8) : State.reset.frame[i] = 0 := Vector.getElem_replicate i.isLt

/-- A block just reset is in `WARMUP`, and its first sample is not the last of the 100 that warm-up takes (R7, R76). -/
theorem reset_selects_warm (x : Sample) : Selects { State.reset with sample := x } .warm :=
  have hnotLast : State.reset.wcnt + 1 ≠ State.reset.cfg.centerSamples := by decide
  .warm rfl hnotLast

/-- Settles O11: each register and constant is a field of `State.reset`; the frame is read byte by byte, and the decoder
reads what the first sample selects. -/
theorem resetStateHoldsTheStatedValues : Obligations.ResetStateHoldsTheStatedValues :=
  ⟨rfl, rfl, rfl, rfl, rfl, rfl, rfl, rfl, rfl, rfl, rfl, rfl, reset_frame_getElem, rfl, rfl,
    rfl, rfl, rfl, rfl, rfl, rfl, rfl, rfl, fun x => decodeClassWord_of_selects (reset_selects_warm x)⟩

end Sys2Proof.Machine
end
